-- ==== Sys2Proof/Word.lean ====
section
/-!
DEFINITION. The words of the SC12: bytes of a frame, 16-bit quantities, 32-bit time tags (R189), and the small bit sets.
-/

namespace Sys2Proof

/-- One byte of a frame (R189). -/
abbrev Byte := BitVec 8

/-- A two-byte quantity: a code, a rate, a limit, a dwell, a period, a lease, wait or offer time (R189). -/
abbrev Word16 := BitVec 16

/-- A time tag (R181). -/
abbrev Word32 := BitVec 32

/-- A channel set: the bit of weight 2 to the power c stands for CHc (R189). -/
abbrev ChannelSet := BitVec 12

/-- A set of readback fault kinds: bit 0 OVER, bit 1 UNDER, bit 2 STAGE (R189). -/
abbrev FaultSet := BitVec 3

/-- A set of notices: bits 0 to 8 as R189 lists them. -/
abbrev NoticeSet := BitVec 9

/-- A channel, CH0 to CH11. -/
abbrev Ch := Fin 12

/-- A position of the claim table, 0 to 7 (R1). -/
abbrev Pos := Fin 8

end Sys2Proof
end

