-- ==== Sys2Proof/Config.lean ====
section
/-!
DEFINITION. The fixed numbers of the part. The spec leaves no value free, so there is no free value here.
-/

namespace Sys2Proof.Config

/-- The bits of a frame of exactly 24 bytes (R171). -/
def frameBits : Nat := 192

/-- The records the completion log can hold (R148). -/
def logCapacity : Nat := 64

/-- How long, in nanoseconds, an input must hold a new level for a transition: 2 microseconds (R184). -/
def transitionNs : Nat := 2000

/-- The most steps that can end in one event: the rest of one pass and one whole pass more, of at most 16 steps each
(R119, R131: two passes never begin in the same millisecond). -/
def chainBound : Nat := 32

/-- The candidates the search for a claim number can need (R6). -/
def numberCandidates : Nat := 8

end Sys2Proof.Config
end

