-- ==== Sys2Proof/Machine/Frames.lean ====
section
/-!
DEFINITION. The two CRCs of the part (R66, R172), the byte order of its fields (R189) and the sealing of a frame (R172, R173).
-/

namespace Sys2Proof.Machine

/-- The bits of a byte in the order in which a CRC takes them, most significant first (R66, R172). -/
def bitsOf (b : Byte) : List Bool := [7, 6, 5, 4, 3, 2, 1, 0].map b.getLsbD

/-- One bit into the CRC-8 register: shift, and combine with 0x07 when the bit and the register's top bit differ (R172). -/
def crc8Bit (r : Byte) (bit : Bool) : Byte := if r.msb ≠ bit then (r <<< 1) ^^^ 0x07#8 else r <<< 1

/-- The CRC-8 of a frame's bytes: register from 0xFF, no final inversion (R172). -/
def crc8 (bytes : List Byte) : Byte := (bytes.flatMap bitsOf).foldl crc8Bit 0xFF#8

/-- One bit into the CRC-16 register, with 0x1021 (R66). -/
def crc16Bit (r : Word16) (bit : Bool) : Word16 := if r.msb ≠ bit then (r <<< 1) ^^^ 0x1021#16 else r <<< 1

/-- The CRC-16 of configuration records: register from 0xFFFF, no final inversion (R66, R67). -/
def crc16 (bytes : List Byte) : Word16 := (bytes.flatMap bitsOf).foldl crc16Bit 0xFFFF#16

/-- The high byte of a two-byte field (R189: most significant byte first). -/
def hiByte (w : Word16) : Byte := w.extractLsb' 8 8

/-- The low byte of a two-byte field. -/
def loByte (w : Word16) : Byte := w.extractLsb' 0 8

/-- A two-byte field, most significant byte first (R189). -/
def bytes16 (w : Word16) : List Byte := [hiByte w, loByte w]

/-- A four-byte field, most significant byte first (R189). -/
def bytes32 (w : Word32) : List Byte :=
  [w.extractLsb' 24 8, w.extractLsb' 16 8, w.extractLsb' 8 8, w.extractLsb' 0 8]

/-- Byte `n` of a frame. -/
def byteAt (bytes : List Byte) (n : Nat) : Byte := bytes.getD n 0

/-- The two-byte field that starts at byte `n` of a frame, most significant byte first (R189). -/
def wordAt (bytes : List Byte) (n : Nat) : Word16 := byteAt bytes n ++ byteAt bytes (n + 1)

/-- A list of bytes brought to length `n`: unused bytes are 0x00 (R173). -/
def padTo (n : Nat) (bytes : List Byte) : List Byte := (bytes ++ List.replicate n 0).take n

/-- A whole frame of 24 bytes: bytes 0 to 22 as given, unused ones 0x00, and their CRC-8 in byte 23 (R172, R173). -/
def sealFrame (bytes : List Byte) : List Byte := padTo 23 bytes ++ [crc8 (padTo 23 bytes)]

end Sys2Proof.Machine
end

