-- ==== Sys2Proof/Syntax.lean ====
section
/-!
DEFINITION. The commands of the SC12, one constructor per row of spec/opcode_table.json, with their raw operands.
-/

namespace Sys2Proof

/-- The three masters; master n is the controller on port Pn. -/
inductive Master where
  | m0 | m1 | m2
  deriving DecidableEq, Repr

/-- The two trigger lines (R184). -/
inductive Line where
  | trg0 | trg1
  deriving DecidableEq, Repr

/-- The level of a trigger input (R184). -/
inductive Level where
  | low | high
  deriving DecidableEq, Repr

/-- An edge of a port's clock line (R170). -/
inductive ClockEdge where
  | rising | falling
  deriving DecidableEq, Repr

/-- What gives the full reset (R186). -/
inductive ResetSource where
  | powerOn | resetInput
  deriving DecidableEq, Repr

/-- The commands. The operands of a request are the parameter fields of R190's layout as received: a code that stands for
nothing is an operand like any other, and the request is then answered BAD_PARAMETER.
A request command is the event "select rises on the port of `m`, and the frame that ends is this request"; so are
`frameError` and `unknownRequest` for the frames that are no known request (R171). -/
inductive Instr where
  /-- The select line of the port falls (R170). -/
  | frameBegin (m : Master)
  /-- Select rises, and the frame that ends has a LENGTH or CRC error (R175). -/
  | frameError (m : Master)
  /-- Select rises on a good frame whose code is none of the 34 (R171). -/
  | unknownRequest (m : Master) (code : Byte)
  | nop (m : Master)
  | claim (m : Master) (set lease wait : Word16) (presence : Byte) (digest : Word16)
  | renew (m : Master) (number : Byte)
  | release (m : Master) (number mode : Byte)
  | withdraw (m : Master) (number : Byte)
  | offer (m : Master) (number target : Byte) (time : Word16)
  | accept (m : Master) (number : Byte) (lease : Word16)
  | ackRevoke (m : Master)
  | readClaim (m : Master) (selector value : Byte)
  | setRange (m : Master) (channel : Byte) (low high fallback maxRate : Word16)
  /-- The six bytes of the policy part: record bytes 8 to 13 of R191. -/
  | setPolicy (m : Master) (channel settle retry packed counted fault revoke : Byte)
  | write (m : Master) (channel : Byte) (code rate : Word16)
  | clearFault (m : Master) (channel : Byte)
  | readChannel (m : Master) (channel : Byte)
  | readConfig (m : Master) (channel : Byte)
  | readDigest (m : Master) (set : Word16)
  /-- `flags` is byte 6 of the step record of R191. -/
  | loadStep (m : Master) (channel slot : Byte) (target rate dwell : Word16) (flags : Byte)
  | setList (m : Master) (channel count mode : Byte) (period : Word16) (onFault recordPasses : Byte)
  | start (m : Master) (set : Word16) (source : Byte)
  | stop (m : Master) (set : Word16) (mode : Byte)
  | pause (m : Master) (set : Word16)
  | resume (m : Master) (set : Word16) (mode : Byte)
  | proceed (m : Master) (set : Word16)
  | readStep (m : Master) (channel slot : Byte)
  | readLog (m : Master) (mode : Byte)
  | setLogThreshold (m : Master) (threshold : Byte)
  | readNotices (m : Master)
  | ackNotices (m : Master) (set : Word16)
  | setNoticeMask (m : Master) (set : Word16)
  | readPortError (m : Master)
  | clearPortError (m : Master)
  | readTime (m : Master)
  | setTriggers (m : Master) (edge0 edge1 : Byte)
  | resetDevice (m : Master)
  /-- The wait timer of the entry at the position expires (R17). -/
  | waitExpiry (p : Pos)
  /-- The lease timer of the entry at the position expires (R32). -/
  | leaseExpiry (p : Pos)
  /-- The offer timer of the entry at the position expires (R45). -/
  | offerLapse (p : Pos)
  /-- The move of the channel advances (R77). -/
  | moveAdvance (c : Ch)
  /-- The settle timer of the channel expires, and the readback monitor reports `verdict` (R83). -/
  | settleExpiry (c : Ch) (verdict : FaultSet)
  | dwellExpiry (c : Ch)
  | gapExpiry (c : Ch)
  /-- The input of the line takes the level and holds it for `heldNs` nanoseconds (R184). -/
  | triggerTransition (l : Line) (level : Level) (heldNs : Nat)
  | fullReset (source : ResetSource)
  /-- The full reset ends, the inputs standing at these levels (R186). -/
  | fullResetEnd (level0 level1 : Level)
  | timeTagAdvance
  /-- One edge of the port's clock line while the incoming data line carries `bit` (R170). -/
  | portClockEdge (m : Master) (edge : ClockEdge) (bit : Bool)
  deriving DecidableEq, Repr

end Sys2Proof
end

