-- ==== Sys2Proof/Decode.lean ====
section
/-!
DEFINITION. The decoder and the encoder of request frames (R171, R189, R190), the well-formedness check of a request's
parameters (R174), and decodeTableWord, which answers none: spec/opcode_table.json gives no row any bits (log 9).
-/

namespace Sys2Proof

open Sys2Proof.Machine

/-- The code of a master (R189). -/
def Master.code : Master → Byte
  | .m0 => 0
  | .m1 => 1
  | .m2 => 2

/-- A channel set that a request names: at least one member, bits 12 to 15 clear (R189; 00_scope.md, Channel sets). -/
def isChannelSet (w : Word16) : Bool := decide (w ≠ 0) && decide (w.toNat < 4096)

/-- A notice set: bits 9 to 15 clear (R189). -/
def isNoticeSet (w : Word16) : Bool := decide (w.toNat < 512)

/-- A channel number, 0 to 11 (R189). -/
def isChannel (b : Byte) : Bool := decide (b.toNat < 12)

/-- A claim number, 1 to 255 (R190). -/
def isClaimNumber (b : Byte) : Bool := decide (b ≠ 0)

/-- A byte that holds at most `n`: an enumeration, a flag, a packed byte or a bounded number (R189). -/
def atMost (b : Byte) (n : Nat) : Bool := decide (b.toNat ≤ n)

/-- A period or offer time of at least 10 ms (R7, R42, R46). -/
def atLeastTen (w : Word16) : Bool := decide (10 ≤ w.toNat)

/-- The well-formedness check of each request. A command that is no request carries nothing to be malformed. -/
def Instr.parametersOk : Instr → Bool
  | .frameBegin _ => true
  | .frameError _ => true
  | .unknownRequest _ _ => true
  | .nop _ => true
  -- R7
  | .claim _ set lease _ presence _ => isChannelSet set && atLeastTen lease && atMost presence 1
  -- R18
  | .renew _ number => isClaimNumber number
  -- R21
  | .release _ number mode => isClaimNumber number && atMost mode 1
  -- R25
  | .withdraw _ number => isClaimNumber number
  -- R42
  | .offer m number target time =>
      isClaimNumber number && atMost target 2 && decide (target ≠ m.code) && atLeastTen time
  -- R46
  | .accept _ number lease => isClaimNumber number && atLeastTen lease
  | .ackRevoke _ => true
  -- R27
  | .readClaim _ selector value =>
      (decide (selector = 0) && isClaimNumber value) || (decide (selector = 1) && atMost value 7)
  -- R58
  | .setRange _ channel low high fallback _ =>
      isChannel channel && decide (low ≤ high) && decide (low ≤ fallback) && decide (fallback ≤ high)
  -- R62, R191
  | .setPolicy _ channel settle retry packed counted fault revoke =>
      isChannel channel && decide (settle ≠ 0) && atMost retry 2 && atMost packed 15 && atMost counted 7
        && atMost fault 2 && atMost revoke 2
  -- R79
  | .write _ channel _ _ => isChannel channel
  -- R91
  | .clearFault _ channel => isChannel channel
  -- R98
  | .readChannel _ channel => isChannel channel
  -- R65
  | .readConfig _ channel => isChannel channel
  -- R69
  | .readDigest _ set => isChannelSet set
  -- R107
  | .loadStep _ channel slot _ _ _ flags => isChannel channel && atMost slot 15 && atMost flags 15
  -- R109
  | .setList _ channel count mode _ onFault recordPasses =>
      isChannel channel && decide (count ≠ 0) && atMost count 16 && atMost mode 1 && atMost onFault 2
        && atMost recordPasses 1
  -- R124
  | .start _ set source => isChannelSet set && atMost source 2
  -- R137
  | .stop _ set mode => isChannelSet set && atMost mode 1
  -- R141
  | .pause _ set => isChannelSet set
  -- R143
  | .resume _ set mode => isChannelSet set && atMost mode 1
  -- R146
  | .proceed _ set => isChannelSet set
  -- R112
  | .readStep _ channel slot => isChannel channel && atMost slot 15
  -- R155
  | .readLog _ mode => atMost mode 1
  -- R158
  | .setLogThreshold _ threshold => atMost threshold 64
  | .readNotices _ => true
  -- R166
  | .ackNotices _ set => isNoticeSet set
  -- R168
  | .setNoticeMask _ set => isNoticeSet set
  | .readPortError _ => true
  | .clearPortError _ => true
  | .readTime _ => true
  -- R185
  | .setTriggers _ edge0 edge1 => atMost edge0 2 && atMost edge1 2
  | .resetDevice _ => true
  | .waitExpiry _ => true
  | .leaseExpiry _ => true
  | .offerLapse _ => true
  | .moveAdvance _ => true
  | .settleExpiry _ _ => true
  | .dwellExpiry _ => true
  | .gapExpiry _ => true
  | .triggerTransition _ _ _ => true
  | .fullReset _ => true
  | .fullResetEnd _ _ => true
  | .timeTagAdvance => true
  | .portClockEdge _ _ _ => true

/-- The nineteen requests that a BARRED master is refused (R38); every other command is exempt or no request. -/
def Instr.barrable : Instr → Bool
  | .frameBegin _ => false
  | .frameError _ => false
  | .unknownRequest _ _ => false
  | .nop _ => false
  | .claim _ _ _ _ _ _ => true
  | .renew _ _ => true
  | .release _ _ _ => true
  | .withdraw _ _ => true
  | .offer _ _ _ _ => true
  | .accept _ _ _ => true
  | .ackRevoke _ => false
  | .readClaim _ _ _ => false
  | .setRange _ _ _ _ _ _ => true
  | .setPolicy _ _ _ _ _ _ _ _ => true
  | .write _ _ _ _ => true
  | .clearFault _ _ => true
  | .readChannel _ _ => false
  | .readConfig _ _ => false
  | .readDigest _ _ => false
  | .loadStep _ _ _ _ _ _ _ => true
  | .setList _ _ _ _ _ _ _ => true
  | .start _ _ _ => true
  | .stop _ _ _ => true
  | .pause _ _ => true
  | .resume _ _ _ => true
  | .proceed _ _ => true
  | .readStep _ _ _ => false
  | .readLog _ _ => false
  | .setLogThreshold _ _ => false
  | .readNotices _ => false
  | .ackNotices _ _ => false
  | .setNoticeMask _ _ => false
  | .readPortError _ => false
  | .clearPortError _ => false
  | .readTime _ => false
  | .setTriggers _ _ _ => true
  | .resetDevice _ => true
  | .waitExpiry _ => false
  | .leaseExpiry _ => false
  | .offerLapse _ => false
  | .moveAdvance _ => false
  | .settleExpiry _ _ => false
  | .dwellExpiry _ => false
  | .gapExpiry _ => false
  | .triggerTransition _ _ _ => false
  | .fullReset _ => false
  | .fullResetEnd _ _ => false
  | .timeTagAdvance => false
  | .portClockEdge _ _ _ => false

/-- The request code of R190; none for a command that is no known request. -/
def Instr.requestCode : Instr → Option Byte
  | .frameBegin _ => none
  | .frameError _ => none
  | .unknownRequest _ _ => none
  | .nop _ => some 0x00
  | .claim _ _ _ _ _ _ => some 0x10
  | .renew _ _ => some 0x11
  | .release _ _ _ => some 0x12
  | .withdraw _ _ => some 0x13
  | .offer _ _ _ _ => some 0x14
  | .accept _ _ _ => some 0x15
  | .ackRevoke _ => some 0x16
  | .readClaim _ _ _ => some 0x17
  | .setRange _ _ _ _ _ _ => some 0x20
  | .setPolicy _ _ _ _ _ _ _ _ => some 0x21
  | .write _ _ _ _ => some 0x22
  | .clearFault _ _ => some 0x23
  | .readChannel _ _ => some 0x24
  | .readConfig _ _ => some 0x25
  | .readDigest _ _ => some 0x26
  | .loadStep _ _ _ _ _ _ _ => some 0x30
  | .setList _ _ _ _ _ _ _ => some 0x31
  | .start _ _ _ => some 0x32
  | .stop _ _ _ => some 0x33
  | .pause _ _ => some 0x34
  | .resume _ _ _ => some 0x35
  | .proceed _ _ => some 0x36
  | .readStep _ _ _ => some 0x37
  | .readLog _ _ => some 0x40
  | .setLogThreshold _ _ => some 0x41
  | .readNotices _ => some 0x50
  | .ackNotices _ _ => some 0x51
  | .setNoticeMask _ _ => some 0x52
  | .readPortError _ => some 0x60
  | .clearPortError _ => some 0x61
  | .readTime _ => some 0x62
  | .setTriggers _ _ _ => some 0x63
  | .resetDevice _ => some 0x64
  | .waitExpiry _ => none
  | .leaseExpiry _ => none
  | .offerLapse _ => none
  | .moveAdvance _ => none
  | .settleExpiry _ _ => none
  | .dwellExpiry _ => none
  | .gapExpiry _ => none
  | .triggerTransition _ _ _ => none
  | .fullReset _ => none
  | .fullResetEnd _ _ => none
  | .timeTagAdvance => none
  | .portClockEdge _ _ _ => none

/-- The request a good frame of the port of `m` carries: byte 0 is the code, the parameters start at byte 1, and bytes at
positions that the request does not use are ignored (R171, R189, R190). -/
def decodeFrame (m : Master) (f : List Byte) : Instr :=
  let b := byteAt f
  let w := wordAt f
  match (b 0).toNat with
  | 0x00 => .nop m
  | 0x10 => .claim m (w 1) (w 3) (w 5) (b 7) (w 8)
  | 0x11 => .renew m (b 1)
  | 0x12 => .release m (b 1) (b 2)
  | 0x13 => .withdraw m (b 1)
  | 0x14 => .offer m (b 1) (b 2) (w 3)
  | 0x15 => .accept m (b 1) (w 2)
  | 0x16 => .ackRevoke m
  | 0x17 => .readClaim m (b 1) (b 2)
  | 0x20 => .setRange m (b 1) (w 2) (w 4) (w 6) (w 8)
  | 0x21 => .setPolicy m (b 1) (b 2) (b 3) (b 4) (b 5) (b 6) (b 7)
  | 0x22 => .write m (b 1) (w 2) (w 4)
  | 0x23 => .clearFault m (b 1)
  | 0x24 => .readChannel m (b 1)
  | 0x25 => .readConfig m (b 1)
  | 0x26 => .readDigest m (w 1)
  | 0x30 => .loadStep m (b 1) (b 2) (w 3) (w 5) (w 7) (b 9)
  | 0x31 => .setList m (b 1) (b 2) (b 3) (w 4) (b 6) (b 7)
  | 0x32 => .start m (w 1) (b 3)
  | 0x33 => .stop m (w 1) (b 3)
  | 0x34 => .pause m (w 1)
  | 0x35 => .resume m (w 1) (b 3)
  | 0x36 => .proceed m (w 1)
  | 0x37 => .readStep m (b 1) (b 2)
  | 0x40 => .readLog m (b 1)
  | 0x41 => .setLogThreshold m (b 1)
  | 0x50 => .readNotices m
  | 0x51 => .ackNotices m (w 1)
  | 0x52 => .setNoticeMask m (w 1)
  | 0x60 => .readPortError m
  | 0x61 => .clearPortError m
  | 0x62 => .readTime m
  | 0x63 => .setTriggers m (b 1) (b 2)
  | 0x64 => .resetDevice m
  | _ => .unknownRequest m (b 0)

/-- The code and the used parameter bytes of a frame-end command, in R190's layout; none for every other command and for a
frame with an error, which no bytes spell. -/
def Instr.frameBody : Instr → Option (List Byte)
  | .frameBegin _ => none
  | .frameError _ => none
  | .unknownRequest _ code => some [code]
  | .nop _ => some [0x00]
  | .claim _ set lease wait presence digest =>
      some ([0x10] ++ bytes16 set ++ bytes16 lease ++ bytes16 wait ++ [presence] ++ bytes16 digest)
  | .renew _ number => some [0x11, number]
  | .release _ number mode => some [0x12, number, mode]
  | .withdraw _ number => some [0x13, number]
  | .offer _ number target time => some ([0x14, number, target] ++ bytes16 time)
  | .accept _ number lease => some ([0x15, number] ++ bytes16 lease)
  | .ackRevoke _ => some [0x16]
  | .readClaim _ selector value => some [0x17, selector, value]
  | .setRange _ channel low high fallback maxRate =>
      some ([0x20, channel] ++ bytes16 low ++ bytes16 high ++ bytes16 fallback ++ bytes16 maxRate)
  | .setPolicy _ channel settle retry packed counted fault revoke =>
      some [0x21, channel, settle, retry, packed, counted, fault, revoke]
  | .write _ channel code rate => some ([0x22, channel] ++ bytes16 code ++ bytes16 rate)
  | .clearFault _ channel => some [0x23, channel]
  | .readChannel _ channel => some [0x24, channel]
  | .readConfig _ channel => some [0x25, channel]
  | .readDigest _ set => some ([0x26] ++ bytes16 set)
  | .loadStep _ channel slot target rate dwell flags =>
      some ([0x30, channel, slot] ++ bytes16 target ++ bytes16 rate ++ bytes16 dwell ++ [flags])
  | .setList _ channel count mode period onFault recordPasses =>
      some ([0x31, channel, count, mode] ++ bytes16 period ++ [onFault, recordPasses])
  | .start _ set source => some ([0x32] ++ bytes16 set ++ [source])
  | .stop _ set mode => some ([0x33] ++ bytes16 set ++ [mode])
  | .pause _ set => some ([0x34] ++ bytes16 set)
  | .resume _ set mode => some ([0x35] ++ bytes16 set ++ [mode])
  | .proceed _ set => some ([0x36] ++ bytes16 set)
  | .readStep _ channel slot => some [0x37, channel, slot]
  | .readLog _ mode => some [0x40, mode]
  | .setLogThreshold _ threshold => some [0x41, threshold]
  | .readNotices _ => some [0x50]
  | .ackNotices _ set => some ([0x51] ++ bytes16 set)
  | .setNoticeMask _ set => some ([0x52] ++ bytes16 set)
  | .readPortError _ => some [0x60]
  | .clearPortError _ => some [0x61]
  | .readTime _ => some [0x62]
  | .setTriggers _ edge0 edge1 => some [0x63, edge0, edge1]
  | .resetDevice _ => some [0x64]
  | .waitExpiry _ => none
  | .leaseExpiry _ => none
  | .offerLapse _ => none
  | .moveAdvance _ => none
  | .settleExpiry _ _ => none
  | .dwellExpiry _ => none
  | .gapExpiry _ => none
  | .triggerTransition _ _ _ => none
  | .fullReset _ => none
  | .fullResetEnd _ _ => none
  | .timeTagAdvance => none
  | .portClockEdge _ _ _ => none

/-- The 24 bytes of the frame that carries the command, unused parameter bytes 0x00 (R189); empty for a command that no frame
carries. -/
def encodeFrame (i : Instr) : List Byte :=
  match i.frameBody with
  | some body => sealFrame body
  | none => []

/-- The command a table word spells: none, since the table gives no row any bits (log 9). -/
def decodeTableWord (_nbits _w : Nat) : Option Instr := none

end Sys2Proof
end

