-- ==== Sys2Proof/WellFormed.lean ====
section
/-!
DEFINITION. The well-formed commands: those whose parameters pass the second check of every request (R174). The checks
themselves stand in Decode.lean, because executing a request makes them: a malformed request is not refused by the model, it
is answered BAD_PARAMETER.
-/

namespace Sys2Proof

/-- A command whose parameter fields all stand for something and lie in the ranges of the owning rule (R174, R189). -/
abbrev Instr.WellFormed (i : Instr) : Prop := i.parametersOk = true

/-- The master whose port a frame-end command names; none for the other commands. -/
def Instr.frameMaster : Instr → Option Master
  | .frameBegin _ => none
  | .frameError m => some m
  | .unknownRequest m _ => some m
  | .nop m => some m
  | .claim m _ _ _ _ _ => some m
  | .renew m _ => some m
  | .release m _ _ => some m
  | .withdraw m _ => some m
  | .offer m _ _ _ => some m
  | .accept m _ _ => some m
  | .ackRevoke m => some m
  | .readClaim m _ _ => some m
  | .setRange m _ _ _ _ _ => some m
  | .setPolicy m _ _ _ _ _ _ _ => some m
  | .write m _ _ _ => some m
  | .clearFault m _ => some m
  | .readChannel m _ => some m
  | .readConfig m _ => some m
  | .readDigest m _ => some m
  | .loadStep m _ _ _ _ _ _ => some m
  | .setList m _ _ _ _ _ _ => some m
  | .start m _ _ => some m
  | .stop m _ _ => some m
  | .pause m _ => some m
  | .resume m _ _ => some m
  | .proceed m _ => some m
  | .readStep m _ _ => some m
  | .readLog m _ => some m
  | .setLogThreshold m _ => some m
  | .readNotices m => some m
  | .ackNotices m _ => some m
  | .setNoticeMask m _ => some m
  | .readPortError m => some m
  | .clearPortError m => some m
  | .readTime m => some m
  | .setTriggers m _ _ => some m
  | .resetDevice m => some m
  | .waitExpiry _ => none
  | .leaseExpiry _ => none
  | .offerLapse _ => none
  | .moveAdvance _ => none
  | .settleExpiry _ _ => none
  | .dwellExpiry _ => none
  | .gapExpiry _ => none
  | .triggerTransition _ _ _ => none
  | .fullReset _ => none
  | .fullResetEnd _ _ => none
  | .timeTagAdvance => none
  | .portClockEdge _ _ _ => none

end Sys2Proof
end

