-- ==== Sys2Proof/Machine/State.lean ====
section
/-!
DEFINITION. The state of the SC12 as plain data: every piece of state the spec gives a block, and the queue of commands; the
reasons a step could stop for; the state after a full reset.
-/

namespace Sys2Proof.Machine

/-- One value for each master. -/
structure PerMaster (α : Type) where
  m0 : α
  m1 : α
  m2 : α
  deriving DecidableEq, Repr

/-! ## Channel units: configuration (R56, R57) -/

/-- The two drive stages (R74). -/
inductive Stage where
  | a | b
  deriving DecidableEq, Repr

/-- The stage of a retry, relative to that of the attempt before it (R57). -/
inductive RetryStage where
  | same | alternate
  deriving DecidableEq, Repr

/-- The fault and revoke actions (R57, R92). -/
inductive Action where
  | hold | fallback | rampFallback
  deriving DecidableEq, Repr

/-- The range part of a configuration record (R56). -/
structure RangePart where
  low : Word16
  high : Word16
  fallback : Word16
  maxRate : Word16
  deriving DecidableEq, Repr

/-- The policy part of a configuration record (R57). -/
structure PolicyPart where
  settleTime : Byte
  retryLimit : Byte
  retry1 : RetryStage
  retry2 : RetryStage
  counted : FaultSet
  preferred : Stage
  checkWrites : Bool
  faultAction : Action
  revokeAction : Action
  deriving DecidableEq, Repr

/-- A configuration record (R55). -/
structure ConfigRecord where
  range : RangePart
  policy : PolicyPart
  deriving DecidableEq, Repr

/-! ## Channel units: drive (R72) -/

/-- What started a move (R72). -/
inductive MoveOrigin where
  | write | step | fallback
  deriving DecidableEq, Repr

/-- What started a check (R72). -/
inductive CheckOrigin where
  | write | step
  deriving DecidableEq, Repr

/-- A move in progress (R72). `advanceDue`: the advance of the present millisecond is still to be taken (R77). -/
structure Move where
  target : Word16
  rate : Word16
  origin : MoveOrigin
  checkRequired : Bool
  advanceDue : Bool
  deriving DecidableEq, Repr

/-- A readback verdict: the raw set R and the counted set C (R83). -/
structure Verdict where
  raw : FaultSet
  counted : FaultSet
  deriving DecidableEq, Repr

/-- A check in flight (R72, R82). `previous`: the verdict of the attempt before the current one. -/
structure Check where
  origin : CheckOrigin
  attempt : Byte
  settleRemaining : Byte
  previous : Option Verdict
  deriving DecidableEq, Repr

/-- The drive state, with the fields present in it (R72). -/
inductive Drive where
  | steady
  | moving (mv : Move)
  | checking (ck : Check)
  deriving DecidableEq, Repr

/-- How a check ended (R72). -/
inductive CheckOutcome where
  | passed | failed
  deriving DecidableEq, Repr

/-- The last check (R87). -/
structure LastCheck where
  attempts : Byte
  verdict : Verdict
  outcome : CheckOutcome
  deriving DecidableEq, Repr

/-! ## Channel units: step lists (R101 to R106) -/

/-- What a step waits for besides its dwell (R101). -/
inductive HoldOn where
  | none | trg0 | trg1 | proceed
  deriving DecidableEq, Repr

/-- A step record (R101). -/
structure StepRecord where
  target : Word16
  rate : Word16
  dwell : Word16
  hold : HoldOn
  check : Bool
  record : Bool
  deriving DecidableEq, Repr

/-- The mode of a list (R102). -/
inductive ListMode where
  | single | cyclic
  deriving DecidableEq, Repr

/-- What a list does when a step's check fails (R102). -/
inductive OnFault where
  | stop | finishPass | continue
  deriving DecidableEq, Repr

/-- A list descriptor (R102). -/
structure Descriptor where
  count : Byte
  mode : ListMode
  period : Word16
  onFault : OnFault
  recordPasses : Bool
  deriving DecidableEq, Repr

/-- The run phase (R106); GAP holds gap remaining (R105). -/
inductive RunPhase where
  | move | check | hold
  | gap (remaining : Word16)
  deriving DecidableEq, Repr

/-- The reason of a stop (R105). -/
inductive StopReason where
  | request | fault
  deriving DecidableEq, Repr

/-- The runtime record of a RUNNING or PAUSED list (R105).
`dwellTimer` is the dwell timer: `some r` with dwell remaining `r`, its expiry still to come (due when `r` is 0); `none` when
the dwell is met and dwell remaining is 0 (R116; log 11). -/
structure Runtime where
  index : Fin 16
  passCount : Word16
  phase : RunPhase
  dwellTimer : Option Word16
  triggerSeen : Bool
  proceedSeen : Bool
  passStart : Word32
  pendingStop : Option StopReason
  deriving DecidableEq, Repr

/-- The list state, with what is present in it (R104, R105). -/
inductive ListState where
  | empty
  | loaded
  | armed (line : Line)
  | running (r : Runtime)
  | paused (r : Runtime)
  deriving DecidableEq, Repr

/-- One channel unit (R55, R72, R101 to R105, R117). -/
structure ChannelUnit where
  config : ConfigRecord
  digest : Word16
  code : Word16
  drive : Drive
  activeStage : Stage
  faultLatch : Bool
  lastCheck : Option LastCheck
  slots : Vector (Option StepRecord) 16
  descriptor : Descriptor
  list : ListState
  mark0 : Option Word32
  mark1 : Option Word32
  deriving DecidableEq, Repr

/-! ## Claim table (R1 to R6, R37) -/

/-- The wait timer of a PENDING entry (R16). -/
structure WaitTimer where
  limit : Word16
  remaining : Word16
  deriving DecidableEq, Repr

/-- The state of a claim entry, with the fields present in it (R1, R2). -/
inductive ClaimState where
  | pending (wait : Option WaitTimer) (expected : Option Word16)
  | held (leaseRemaining : Word16) (grantTag : Word32)
  | offered (leaseRemaining : Word16) (grantTag : Word32) (target : Master) (offerRemaining : Word16)
  deriving DecidableEq, Repr

/-- A claim entry (R2). Its position is its place in the table. -/
structure ClaimEntry where
  number : Byte
  master : Master
  set : ChannelSet
  leasePeriod : Word16
  state : ClaimState
  deriving DecidableEq, Repr

/-- The revoke state of a master (R37). -/
inductive RevokeState where
  | active | barred
  deriving DecidableEq, Repr

/-- The claim table (R1, R5, R6, R37). `order` is the pending order, oldest first, by position. -/
structure ClaimTable where
  entries : Vector (Option ClaimEntry) 8
  order : List Pos
  nextNumber : Byte
  revoke : PerMaster RevokeState
  deriving DecidableEq, Repr

/-! ## Completion log (R148 to R150) -/

/-- Why a claim was refused (R150). -/
inductive RefuseReason where
  | timeout | digest
  deriving DecidableEq, Repr

/-- How a released claim's channels are left (R21). -/
inductive ReleaseMode where
  | hold | fallback
  deriving DecidableEq, Repr

/-- The five claim kinds, with the fields peculiar to each (R150). -/
inductive ClaimRecord where
  | granted
  | refused (reason : RefuseReason)
  | released (reason : ReleaseMode)
  | leaseExpired
  | handoffDone (toMaster : Master)
  deriving DecidableEq, Repr

/-- The seven channel kinds, with the fields each carries besides master and channel (R150). -/
inductive ChannelRecord where
  | configChanged (digest : Word16)
  | stepDone (index : Fin 16) (pass : Word16) (code : Word16) (check : Option (Byte × Verdict))
  | passDone (pass : Word16) (overrun : Bool)
  | listEnd (pass : Word16)
  | listStopped (reason : StopReason) (pass : Option Word16) (index : Option (Fin 16))
  | checkFailed (attempts : Byte) (verdict : Verdict) (stage : Stage) (code : Word16) (step : Option (Fin 16 × Word16))
  | checkRecovered (attempts : Byte) (verdict : Verdict) (stage : Stage) (code : Word16) (step : Option (Fin 16 × Word16))
  deriving DecidableEq, Repr

/-- What a record says, by its body (R150, R194). -/
inductive RecordBody where
  | claim (master : Master) (number : Byte) (set : ChannelSet) (kind : ClaimRecord)
  | channel (master : Master) (c : Ch) (kind : ChannelRecord)
  | softReset (master : Master)
  deriving DecidableEq, Repr

/-- A log record (R149). -/
structure LogRecord where
  seq : Word16
  tag : Word32
  body : RecordBody
  deriving DecidableEq, Repr

/-- A master's place in the log (R148). -/
structure LogReader where
  cursor : Word16
  threshold : Byte
  gap : Bool
  deriving DecidableEq, Repr

/-- The completion log (R148); the records oldest first. -/
structure CompletionLog where
  records : List LogRecord
  nextSeq : Word16
  readers : PerMaster LogReader
  deriving DecidableEq, Repr

/-! ## Notice unit (R161, R162, R164) -/

/-- The nine notices (R161). -/
inductive Notice where
  | granted | refused | revoked | offered | handoff | list | fault | log | port
  deriving DecidableEq, Repr

/-- The HANDOFF reasons (R162). -/
inductive HandoffReason where
  | accepted | declined | lapsed
  deriving DecidableEq, Repr

/-- A master's notices (R161). `line`: the notice line is asserted, that is low (R164). -/
structure NoticeState where
  pending : NoticeSet
  mask : NoticeSet
  handoff : Option HandoffReason
  line : Bool
  deriving DecidableEq, Repr

/-! ## Ports (R170, R176) -/

/-- The frame errors (R171). -/
inductive FrameErrorKind where
  | length | crc
  deriving DecidableEq, Repr

/-- A held error capture (R176). -/
structure ErrorCapture where
  kind : FrameErrorKind
  firstByte : Option Byte
  tag : Word32
  lost : Bool
  deriving DecidableEq, Repr

/-- A port (R170). `bytes` are the complete bytes received in the frame, `partialByte` the bits of the incomplete byte, and
`dataOut` the level of the outgoing data line. -/
structure Port where
  inProgress : Bool
  bitCount : Nat
  bytes : List Byte
  partialByte : Byte
  response : List Byte
  outgoing : List Byte
  dataOut : Bool
  capture : Option ErrorCapture
  deriving DecidableEq, Repr

/-! ## Trigger unit (R184) -/

/-- Which transitions of a line are trigger edges (R184). -/
inductive EdgeSelection where
  | rising | falling | both
  deriving DecidableEq, Repr

/-- A trigger line (R184). -/
structure TriggerLine where
  selection : EdgeSelection
  level : Level
  deriving DecidableEq, Repr

/-! ## The state -/

/-- The state of the part, and the queue of commands that wait for it. -/
structure State where
  /-- The commands that wait, first in, first out. -/
  pending : List Instr
  /-- The part is held in full reset (R186). -/
  inReset : Bool
  timeTag : Word32
  trg0 : TriggerLine
  trg1 : TriggerLine
  claims : ClaimTable
  channels : Vector ChannelUnit 12
  log : CompletionLog
  notices : PerMaster NoticeState
  ports : PerMaster Port
  deriving DecidableEq, Repr

/-- The reasons for which the part could stop: none. No behaviour of the part is undefined or unpredictable in the spec, so no
command ends in a fault; the type is closed and empty (safe: nothing raises it). -/
inductive Fault where
  deriving DecidableEq, Repr

/-- The reasons for which the model could refuse a command. -/
inductive Refusal where
  /-- Raised by an arm of exec whose command has no meaning yet, by its mnemonic; no arm raises it now. Safe: a refused
  command has no next state. -/
  | notModelled (mnemonic : String)
  deriving DecidableEq, Repr

/-! ## Full reset -/

/-- The same value for each master. -/
def PerMaster.all {α : Type} (a : α) : PerMaster α := ⟨a, a, a⟩

/-- The full-reset configuration record (R56, R57, R70). -/
def ConfigRecord.reset : ConfigRecord where
  range := { low := 0, high := 65535, fallback := 0, maxRate := 0 }
  policy :=
    { settleTime := 10, retryLimit := 0, retry1 := .same, retry2 := .same, counted := 7, preferred := .a,
      checkWrites := false, faultAction := .hold, revokeAction := .hold }

/-- The 14 bytes of the full-reset record, as R191 lists them. -/
def ConfigRecord.resetBytes : List Byte :=
  [0x00, 0x00, 0xFF, 0xFF, 0x00, 0x00, 0x00, 0x00, 0x0A, 0x00, 0x00, 0x07, 0x00, 0x00]

/-- A channel unit after a full reset (R70, R99, R122). -/
def ChannelUnit.reset : ChannelUnit where
  config := .reset
  digest := crc16 ConfigRecord.resetBytes
  code := 0
  drive := .steady
  activeStage := .a
  faultLatch := false
  lastCheck := none
  slots := Vector.replicate 16 none
  descriptor := { count := 0, mode := .single, period := 0, onFault := .stop, recordPasses := false }
  list := .empty
  mark0 := none
  mark1 := none

/-- The NO_RESPONSE frame: echoed code 0x00, status 0x0F, no results (R173, R189). -/
def noResponseFrame : List Byte := sealFrame [0x00, 0x0F]

/-- A port after a full reset (R179). The spec gives no value to the received bytes, the outgoing copy and the outgoing line
before a first frame: DESIGN CHOICE none, the NO_RESPONSE frame and low (log 6). -/
def Port.reset : Port where
  inProgress := false
  bitCount := 0
  bytes := []
  partialByte := 0
  response := noResponseFrame
  outgoing := noResponseFrame
  dataOut := false
  capture := none

/-- The notices of a master after a full reset: all eight maskable notices masked, 0x01FB (R169, R189). -/
def NoticeState.reset : NoticeState where
  pending := 0
  mask := 0x1FB
  handoff := none
  line := false

/-- The part when a full reset has ended (R186): R29, R70, R99, R122, R159, R169, R179, R181, R184. The recognised levels are
those of the inputs at that moment: DESIGN CHOICE low, low (log 5). -/
def State.reset : State where
  pending := []
  inReset := false
  timeTag := 0
  trg0 := { selection := .rising, level := .low }
  trg1 := { selection := .rising, level := .low }
  claims := { entries := Vector.replicate 8 none, order := [], nextNumber := 1, revoke := .all .active }
  channels := Vector.replicate 12 .reset
  log := { records := [], nextSeq := 0, readers := .all { cursor := 0, threshold := 0, gap := false } }
  notices := .all .reset
  ports := .all .reset

end Sys2Proof.Machine
end

