-- ==== Sys2Proof/Machine/Formats.lean ====
section
/-!
DEFINITION. The byte codes and record layouts a master sees: value codes (R189), status codes (R189), record layouts (R191),
readouts (R193, R194).
-/

namespace Sys2Proof.Machine

/-! ## Value codes (R189) -/

def Stage.code : Stage → Byte
  | .a => 0x00
  | .b => 0x01

def Action.code : Action → Byte
  | .hold => 0x00
  | .fallback => 0x01
  | .rampFallback => 0x02

def Drive.code : Drive → Byte
  | .steady => 0x00
  | .moving _ => 0x01
  | .checking _ => 0x02

def MoveOrigin.code : MoveOrigin → Byte
  | .write => 0x01
  | .step => 0x02
  | .fallback => 0x03

def ListState.code : ListState → Byte
  | .empty => 0x00
  | .loaded => 0x01
  | .armed _ => 0x02
  | .running _ => 0x03
  | .paused _ => 0x04

def RunPhase.code : RunPhase → Byte
  | .move => 0x00
  | .check => 0x01
  | .hold => 0x02
  | .gap _ => 0x03

def ListMode.code : ListMode → Byte
  | .single => 0x00
  | .cyclic => 0x01

def OnFault.code : OnFault → Byte
  | .stop => 0x00
  | .finishPass => 0x01
  | .continue => 0x02

def EdgeSelection.code : EdgeSelection → Byte
  | .rising => 0x00
  | .falling => 0x01
  | .both => 0x02

def RevokeState.code : RevokeState → Byte
  | .active => 0x00
  | .barred => 0x01

def StopReason.code : StopReason → Byte
  | .request => 0x03
  | .fault => 0x04

def HandoffReason.code : HandoffReason → Byte
  | .accepted => 0x01
  | .declined => 0x02
  | .lapsed => 0x03

def FrameErrorKind.code : FrameErrorKind → Byte
  | .length => 0x01
  | .crc => 0x02

def CheckOutcome.code : CheckOutcome → Byte
  | .passed => 0x00
  | .failed => 0x01

def lineCode : Line → Byte
  | .trg0 => 0x00
  | .trg1 => 0x01

/-- A flag or yes/no field (R189). -/
def flagByte (b : Bool) : Byte := if b then 0x01 else 0x00

/-- A single bit of a packed byte (R189, R191). -/
def packedBit (b : Bool) (k : Nat) : Byte := if b then 1#8 <<< k else 0x00

/-- A small number as a byte: an index, a position, a count. -/
def natByte (n : Nat) : Byte := BitVec.ofNat 8 n

/-- The statuses (R174, R189). -/
inductive Status where
  | ok | unknownRequest | badParameter | notHolder | barred | tableFull | busy | overlap
  | noClaim | wrongState | limit | faulted | noOffer | frameError | noResponse
  deriving DecidableEq, Repr

/-- The status codes of R189. -/
def Status.code : Status → Byte
  | .ok => 0x00
  | .unknownRequest => 0x01
  | .badParameter => 0x02
  | .notHolder => 0x03
  | .barred => 0x04
  | .tableFull => 0x05
  | .busy => 0x06
  | .overlap => 0x07
  | .noClaim => 0x08
  | .wrongState => 0x09
  | .limit => 0x0A
  | .faulted => 0x0B
  | .noOffer => 0x0C
  | .frameError => 0x0E
  | .noResponse => 0x0F

/-! ## Record layouts (R191) -/

/-- The 14 bytes of a configuration record (R191). -/
def ConfigRecord.bytes (r : ConfigRecord) : List Byte :=
  bytes16 r.range.low ++ bytes16 r.range.high ++ bytes16 r.range.fallback ++ bytes16 r.range.maxRate ++
  [r.policy.settleTime, r.policy.retryLimit,
   packedBit (r.policy.retry1 = .alternate) 0 ||| packedBit (r.policy.retry2 = .alternate) 1 |||
     packedBit (r.policy.preferred = .b) 2 ||| packedBit r.policy.checkWrites 3,
   r.policy.counted.setWidth 8, r.policy.faultAction.code, r.policy.revokeAction.code]

def HoldOn.code : HoldOn → Byte
  | .none => 0x00
  | .trg0 => 0x01
  | .trg1 => 0x02
  | .proceed => 0x03

/-- The 7 bytes of a step record (R191). -/
def StepRecord.bytes (st : StepRecord) : List Byte :=
  bytes16 st.target ++ bytes16 st.rate ++ bytes16 st.dwell ++
  [st.hold.code ||| packedBit st.check 2 ||| packedBit st.record 3]

/-- The 6 bytes of a list descriptor (R191). -/
def Descriptor.bytes (d : Descriptor) : List Byte :=
  [d.count, d.mode.code] ++ bytes16 d.period ++ [d.onFault.code, flagByte d.recordPasses]

/-! ## Readouts (R193, R194) -/

/-- A channel set in two bytes (R189). -/
def setBytes (set : ChannelSet) : List Byte := bytes16 (set.setWidth 16)

/-- A notice set in two bytes (R189). -/
def noticeBytes (n : NoticeSet) : List Byte := bytes16 (n.setWidth 16)

/-- The claim readout of an entry (R193); `place` is its pending position. -/
def ClaimEntry.readout (e : ClaimEntry) (p : Pos) (place : Nat) : List Byte :=
  let head := [e.number, natByte p.val, e.master.code] ++ setBytes e.set ++ bytes16 e.leasePeriod
  match e.state with
  | .pending wait expected =>
      let timer := match wait with
        | none => bytes16 0 ++ bytes16 0
        | some w => bytes16 w.limit ++ bytes16 w.remaining
      let digest := match expected with
        | none => [0x00] ++ bytes16 0
        | some d => [0x01] ++ bytes16 d
      [0x01] ++ head ++ [natByte place] ++ timer ++ digest
  | .held lease tag => [0x02] ++ head ++ bytes16 lease ++ bytes32 tag ++ [0xFF] ++ bytes16 0
  | .offered lease tag target remaining =>
      [0x03] ++ head ++ bytes16 lease ++ bytes32 tag ++ [target.code] ++ bytes16 remaining

/-- The channel readout (R193); `holder` is the holder and the claim number, when the channel is held. -/
def ChannelUnit.readout (u : ChannelUnit) (holder : Option (Master × Byte)) : List Byte :=
  let held := match holder with
    | none => [0xFF, 0x00]
    | some (m, n) => [m.code, n]
  let move := match u.drive with
    | .moving mv => bytes16 mv.target ++ [mv.origin.code]
    | _ => bytes16 0 ++ [0x00]
  let check := match u.drive with
    | .checking ck => [ck.attempt, ck.settleRemaining]
    | _ => [0x00, 0x00]
  let list := match u.list with
    | .armed l => [0x00, lineCode l] ++ bytes16 0
    | .running r => [natByte r.index.val, r.phase.code] ++ bytes16 r.passCount
    | .paused r => [natByte r.index.val, r.phase.code] ++ bytes16 r.passCount
    | _ => [0x00, 0x00] ++ bytes16 0
  let last := match u.lastCheck with
    | none => [0x00, 0x00, 0x00, 0x00]
    | some k => [k.attempts, k.verdict.raw.setWidth 8, k.verdict.counted.setWidth 8, k.outcome.code]
  bytes16 u.code ++ [u.drive.code, u.activeStage.code, flagByte u.faultLatch] ++ held ++ move ++ check ++
    [u.list.code] ++ list ++ last

/-- The kind codes of R194. -/
def RecordBody.kindCode : RecordBody → Byte
  | .claim _ _ _ .granted => 0x01
  | .claim _ _ _ (.refused _) => 0x02
  | .claim _ _ _ (.released _) => 0x03
  | .claim _ _ _ .leaseExpired => 0x04
  | .claim _ _ _ (.handoffDone _) => 0x05
  | .channel _ _ (.configChanged _) => 0x06
  | .channel _ _ (.stepDone _ _ _ _) => 0x07
  | .channel _ _ (.passDone _ _) => 0x08
  | .channel _ _ (.listEnd _) => 0x09
  | .channel _ _ (.listStopped _ _ _) => 0x0A
  | .channel _ _ (.checkFailed _ _ _ _ _) => 0x0B
  | .channel _ _ (.checkRecovered _ _ _ _ _) => 0x0C
  | .softReset _ => 0x0D

/-- The master a record names (R149). -/
def RecordBody.master : RecordBody → Master
  | .claim m _ _ _ => m
  | .channel m _ _ => m
  | .softReset m => m

/-- The channel body of R194 after its channel byte: the presence byte, and each later field or 0x00. -/
def channelBody (index : Option (Fin 16)) (pass : Option Word16) (check : Option (Byte × Verdict)) (detail : Option Byte)
    (value : Option Word16) : List Byte :=
  [packedBit index.isSome 0 ||| packedBit pass.isSome 1 ||| packedBit check.isSome 2 ||| packedBit detail.isSome 3 |||
    packedBit value.isSome 4,
   natByte ((index.map Fin.val).getD 0)] ++ bytes16 (pass.getD 0) ++
  (match check with
    | none => [0x00, 0x00, 0x00]
    | some (n, v) => [n, v.raw.setWidth 8, v.counted.setWidth 8]) ++
  [detail.getD 0x00] ++ bytes16 (value.getD 0)

/-- The channel body of each channel kind (R194). -/
def ChannelRecord.bytes : ChannelRecord → List Byte
  | .configChanged digest => channelBody none none none none (some digest)
  | .stepDone index pass code check => channelBody (some index) (some pass) check none (some code)
  | .passDone pass overrun => channelBody none (some pass) none (some (flagByte overrun)) none
  | .listEnd pass => channelBody none (some pass) none none none
  | .listStopped reason pass index => channelBody index pass none (some reason.code) none
  | .checkFailed attempts v stage code step =>
      channelBody (step.map Prod.fst) (step.map Prod.snd) (some (attempts, v)) (some stage.code) (some code)
  | .checkRecovered attempts v stage code step =>
      channelBody (step.map Prod.fst) (step.map Prod.snd) (some (attempts, v)) (some stage.code) (some code)

/-- Bytes 15 and 16 of the claim body: the reason, or 0x00, and the to-master, or 0xFF (R194). -/
def ClaimRecord.bytes : ClaimRecord → List Byte
  | .granted => [0x00, 0xFF]
  | .refused .timeout => [0x01, 0xFF]
  | .refused .digest => [0x02, 0xFF]
  | .released .hold => [0x05, 0xFF]
  | .released .fallback => [0x06, 0xFF]
  | .leaseExpired => [0x00, 0xFF]
  | .handoffDone target => [0x00, target.code]

/-- Bytes 12 to 22 of the log readout of a record (R194). -/
def RecordBody.bytes : RecordBody → List Byte
  | .claim _ number set kind => [number] ++ setBytes set ++ kind.bytes
  | .channel _ c kind => [natByte c.val] ++ kind.bytes
  | .softReset _ => []

/-- Bytes 4 to 22 of the log readout of a record (R194). -/
def LogRecord.bytes (r : LogRecord) : List Byte :=
  bytes16 r.seq ++ bytes32 r.tag ++ [r.body.kindCode, r.body.master.code] ++ r.body.bytes

/-- The capture readout, bytes 2 to 10 (R192). -/
def captureBytes : Option ErrorCapture → List Byte
  | none => [0x00]
  | some k => [0x01, k.kind.code, flagByte k.firstByte.isSome, k.firstByte.getD 0x00] ++ bytes32 k.tag ++ [flagByte k.lost]

end Sys2Proof.Machine
end

