-- ==== Sys2Proof/Machine/Flags.lean ====
section
/-!
DEFINITION. The bit sets the part computes with: the notices, their mask, potency and line (R161 to R168), and the counted
set of a readback verdict (R83).
-/

namespace Sys2Proof.Machine

/-- The bit of each notice (R189). -/
def Notice.bit : Notice → NoticeSet
  | .granted => 0x001
  | .refused => 0x002
  | .revoked => 0x004
  | .offered => 0x008
  | .handoff => 0x010
  | .list => 0x020
  | .fault => 0x040
  | .log => 0x080
  | .port => 0x100

/-- The potent notices: pending, and not masked or REVOKED (R164). -/
def NoticeState.potent (n : NoticeState) : NoticeSet := n.pending &&& (~~~n.mask ||| Notice.revoked.bit)

/-- The line follows the pending set and the mask: asserted exactly when a notice is potent (R164). -/
def NoticeState.refresh (n : NoticeState) : NoticeState := { n with line := decide (n.potent ≠ 0) }

/-- A notice becomes pending (R161). -/
def NoticeState.raise (k : Notice) (n : NoticeState) : NoticeState :=
  { n with pending := n.pending ||| k.bit }.refresh

/-- HANDOFF becomes pending, and its reason replaces any kept before (R162). -/
def NoticeState.raiseHandoff (r : HandoffReason) (n : NoticeState) : NoticeState :=
  { n with pending := n.pending ||| Notice.handoff.bit, handoff := some r }.refresh

/-- The named notices other than REVOKED are cleared (R166). -/
def NoticeState.acknowledge (named : NoticeSet) (n : NoticeState) : NoticeState :=
  { n with pending := n.pending &&& (~~~named ||| Notice.revoked.bit) }.refresh

/-- REVOKED is cleared, with the barring (R40, R163). -/
def NoticeState.clearRevoked (n : NoticeState) : NoticeState :=
  { n with pending := n.pending &&& ~~~Notice.revoked.bit }.refresh

/-- The mask is replaced; its REVOKED position is ignored and stored clear (R168, R190). -/
def NoticeState.setMask (mask : NoticeSet) (n : NoticeState) : NoticeState :=
  { n with mask := mask &&& ~~~Notice.revoked.bit }.refresh

/-- The soft reset of a master's notices: the mask is kept (R169). -/
def NoticeState.softReset (n : NoticeState) : NoticeState := { n with pending := 0, handoff := none, line := false }

/-- The counted set: the raw set intersected with the counted mask (R83). -/
def verdictOf (mask raw : FaultSet) : Verdict := { raw := raw, counted := raw &&& mask }

end Sys2Proof.Machine
end

