-- ==== Sys2Proof/Machine/Operands.lean ====
section
/-!
DEFINITION. The operand forms of the requests: what a well-formed parameter field stands for (R189, R191). A field that stands
for nothing never reaches these functions: the request has then been answered BAD_PARAMETER.
-/

namespace Sys2Proof.Machine

/-- A channel number (R189). -/
def chOf (b : Byte) : Ch := Fin.ofNat 12 b.toNat

/-- A table position (R27). -/
def posOf (b : Byte) : Pos := Fin.ofNat 8 b.toNat

/-- A slot index (R107). -/
def slotOf (b : Byte) : Fin 16 := Fin.ofNat 16 b.toNat

/-- A channel set (R189). -/
def channelSetOf (w : Word16) : ChannelSet := w.setWidth 12

/-- A notice set (R189). -/
def noticeSetOf (w : Word16) : NoticeSet := w.setWidth 9

/-- A master's code (R189). -/
def masterOf (b : Byte) : Master := if b = 0 then .m0 else if b = 1 then .m1 else .m2

/-- An action's code (R189). -/
def actionOf (b : Byte) : Action := if b = 0 then .hold else if b = 1 then .fallback else .rampFallback

/-- The RELEASE mode (R189). -/
def releaseModeOf (b : Byte) : ReleaseMode := if b = 0 then .hold else .fallback

/-- An edge selection's code (R189). -/
def edgeSelectionOf (b : Byte) : EdgeSelection := if b = 0 then .rising else if b = 1 then .falling else .both

/-- The wait limit of a CLAIM: 0 for none (R7). -/
def waitOf (w : Word16) : Option WaitTimer := if w = 0 then none else some { limit := w, remaining := w }

/-- The expected digest of a CLAIM: read only when its presence says present (R7, R190). -/
def expectedOf (presence : Byte) (digest : Word16) : Option Word16 := if presence = 1 then some digest else none

/-- The range part a SET_RANGE carries (R58). -/
def rangeOf (low high fallback maxRate : Word16) : RangePart :=
  { low := low, high := high, fallback := fallback, maxRate := maxRate }

/-- The policy part a SET_POLICY carries: record bytes 8 to 13 (R191). -/
def policyOf (settle retry packed counted fault revoke : Byte) : PolicyPart where
  settleTime := settle
  retryLimit := retry
  retry1 := if packed.getLsbD 0 then .alternate else .same
  retry2 := if packed.getLsbD 1 then .alternate else .same
  preferred := if packed.getLsbD 2 then .b else .a
  checkWrites := packed.getLsbD 3
  counted := counted.setWidth 3
  faultAction := actionOf fault
  revokeAction := actionOf revoke

/-- Bits 0 and 1 of byte 6 of a step record (R191). -/
def holdOf (flags : Byte) : HoldOn :=
  match flags.getLsbD 1, flags.getLsbD 0 with
  | false, false => .none
  | false, true => .trg0
  | true, false => .trg1
  | true, true => .proceed

/-- The step record a LOAD_STEP carries (R191). -/
def stepOf (target rate dwell : Word16) (flags : Byte) : StepRecord where
  target := target
  rate := rate
  dwell := dwell
  hold := holdOf flags
  check := flags.getLsbD 2
  record := flags.getLsbD 3

/-- The list descriptor a SET_LIST carries (R191). -/
def descriptorOf (count mode : Byte) (period : Word16) (onFault recordPasses : Byte) : Descriptor where
  count := count
  mode := if mode = 0 then .single else .cyclic
  period := period
  onFault := if onFault = 0 then .stop else if onFault = 1 then .finishPass else .continue
  recordPasses := decide (recordPasses = 1)

/-- The line a START of a trigger source arms its lists for; none for NOW (R126). -/
def sourceLine (source : Byte) : Option Line :=
  if source = 0 then none else if source = 1 then some .trg0 else some .trg1

/-- The twelve channels in ascending order. -/
def allChannels : List Ch := [0, 1, 2, 3, 4, 5, 6, 7, 8, 9, 10, 11]

/-- The channels of a set in ascending order (R67, R125). -/
def channelsOf (set : ChannelSet) : List Ch := allChannels.filter (fun c => set.getLsbD c.val)

/-- The set of all twelve channels (R185, R187). -/
def allSet : ChannelSet := BitVec.allOnes 12

/-- The set of the one channel. -/
def onlyChannel (c : Ch) : ChannelSet := 1#12 <<< c.val

end Sys2Proof.Machine
end

