-- ==== Sys2Proof/Machine/Drive.lean ====
section
/-!
DEFINITION. The drive of a channel unit: moves, checks, actions and orders (R72 to R100), as functions on one channel unit.
-/

namespace Sys2Proof.Machine

/-- What an event at a channel asks of the other blocks: a record, or a notice for the channel's holder. -/
inductive ChannelEffect where
  | record (r : ChannelRecord)
  | notice (k : Notice)
  deriving DecidableEq, Repr

/-- A channel unit after an event, and what the event asks of the other blocks, in order. -/
abbrev Progress := ChannelUnit × List ChannelEffect

/-- The effective rate of a move, 0 for a jump, from the requested rate and the max rate (R75). -/
def effectiveRate (requested maxRate : Word16) : Word16 :=
  if requested = 0 then maxRate
  else if maxRate = 0 then requested
  else if requested ≤ maxRate then requested else maxRate

/-- A check starts: attempt 1 on the active stage (R82). -/
def ChannelUnit.startCheck (origin : CheckOrigin) (u : ChannelUnit) : ChannelUnit :=
  { u with
    drive := .checking
      { origin := origin, attempt := 1, settleRemaining := u.config.policy.settleTime, previous := none } }

/-- A move of the origin ends: a check follows when one is required, and never for a fallback move (R77, R94). -/
def ChannelUnit.endMove (origin : MoveOrigin) (required : Bool) (u : ChannelUnit) : ChannelUnit :=
  match required, origin with
  | true, .write => u.startCheck .write
  | true, .step => u.startCheck .step
  | _, _ => { u with drive := .steady }

/-- A move starts; a jump and a move of no distance end in this event (R76). A move in progress is replaced and a check in
flight is cancelled (R76, R88). -/
def ChannelUnit.startMove (target : Word16) (origin : MoveOrigin) (requested : Word16) (required : Bool) (u : ChannelUnit) :
    ChannelUnit :=
  let rate := effectiveRate requested u.config.range.maxRate
  if rate = 0 ∨ target = u.code then { u with code := target }.endMove origin required
  else
    { u with
      drive := .moving
        { target := target, rate := rate, origin := origin, checkRequired := required, advanceDue := false } }

/-- The code one advance nearer to the target; it stops at a target nearer than the rate (R77). -/
def advanceCode (code target rate : Word16) : Word16 :=
  if code ≤ target then (if target - code ≤ rate then target else code + rate)
  else if code - target ≤ rate then target else code - rate

/-- A move in progress is stopped at its current code (R78). -/
def ChannelUnit.stopMove (u : ChannelUnit) : ChannelUnit :=
  match u.drive with
  | .moving _ => { u with drive := .steady }
  | .steady | .checking _ => u

/-- A check in flight is cancelled; the active stage stays that of the attempt (R88). -/
def ChannelUnit.cancelCheck (u : ChannelUnit) : ChannelUnit :=
  match u.drive with
  | .checking _ => { u with drive := .steady }
  | .steady | .moving _ => u

/-- The three actions, on a drive with no check in flight (R92, R94). -/
def ChannelUnit.applyAction (a : Action) (u : ChannelUnit) : ChannelUnit :=
  match a with
  | .hold => u.stopMove
  | .fallback => { u with code := u.config.range.fallback, drive := .steady }
  | .rampFallback => u.startMove u.config.range.fallback .fallback 0 false

/-- The other stage. -/
def Stage.other : Stage → Stage
  | .a => .b
  | .b => .a

/-- The stage of the attempt after attempt `n` (R85). -/
def ChannelUnit.retryStage (n : Byte) (u : ChannelUnit) : Stage :=
  match (if n = 1 then u.config.policy.retry1 else u.config.policy.retry2) with
  | .same => u.activeStage
  | .alternate => u.activeStage.other

/-- A retry (R85). -/
def ChannelUnit.retry (ck : Check) (v : Verdict) (u : ChannelUnit) : ChannelUnit :=
  { u with
    activeStage := u.retryStage ck.attempt
    drive := .checking
      { ck with attempt := ck.attempt + 1, settleRemaining := u.config.policy.settleTime, previous := some v } }

/-- The list is ARMED, RUNNING or PAUSED. -/
def ListState.active : ListState → Bool
  | .empty | .loaded => false
  | .armed _ | .running _ | .paused _ => true

/-- An ARMED, RUNNING or PAUSED list is aborted to LOADED, with its pending stop (R95, R96). -/
def ChannelUnit.abortList (u : ChannelUnit) : ChannelUnit := if u.list.active then { u with list := .loaded } else u

/-- A release order of mode HOLD (R95). -/
def ChannelUnit.holdOrder (u : ChannelUnit) : ChannelUnit := { u.abortList with drive := .steady }

/-- A revoke order, and a release order of mode FALLBACK (R96). -/
def ChannelUnit.revokeOrder (u : ChannelUnit) : ChannelUnit :=
  u.abortList.cancelCheck.applyAction u.config.policy.revokeAction

/-- A release order (R95, R96). -/
def ChannelUnit.releaseOrder (mode : ReleaseMode) (u : ChannelUnit) : ChannelUnit :=
  match mode with
  | .hold => u.holdOrder
  | .fallback => u.revokeOrder

/-- The code lies within the channel's range (R56). -/
def RangePart.holds (r : RangePart) (code : Word16) : Bool := decide (r.low ≤ code) && decide (code ≤ r.high)

/-- The range part is replaced: every slot blank, the list EMPTY, the digest recomputed (R60). -/
def ChannelUnit.setRange (r : RangePart) (u : ChannelUnit) : ChannelUnit :=
  let config := { u.config with range := r }
  { u with config := config, digest := crc16 config.bytes, slots := Vector.replicate 16 none, list := .empty }

/-- The policy part is replaced: the active stage the preferred one, the digest recomputed (R63). -/
def ChannelUnit.setPolicy (p : PolicyPart) (u : ChannelUnit) : ChannelUnit :=
  let config := { u.config with policy := p }
  { u with config := config, digest := crc16 config.bytes, activeStage := p.preferred }

/-- A WRITE is taken: a move of origin WRITE, checked as the policy says (R80). -/
def ChannelUnit.write (code rate : Word16) (u : ChannelUnit) : ChannelUnit :=
  u.stopMove.cancelCheck.startMove code .write rate u.config.policy.checkWrites

end Sys2Proof.Machine
end

