-- ==== Sys2Proof/Machine/Lists.lean ====
section
/-!
DEFINITION. The step lists of a channel unit: the course of a step, the end of a pass, and every event and request that
reaches a list (R101 to R147), as functions on one channel unit. `tag` is the current time tag.
-/

namespace Sys2Proof.Machine

/-- The trigger line a step holds on (R101). -/
def HoldOn.line : HoldOn → Option Line
  | .trg0 => some .trg0
  | .trg1 => some .trg1
  | .none | .proceed => Option.none

/-- The edge mark of a line (R117). -/
def ChannelUnit.mark (l : Line) (u : ChannelUnit) : Option Word32 :=
  match l with
  | .trg0 => u.mark0
  | .trg1 => u.mark1

/-- The edge mark of a line is set or made absent (R117). -/
def ChannelUnit.setMark (l : Line) (v : Option Word32) (u : ChannelUnit) : ChannelUnit :=
  match l with
  | .trg0 => { u with mark0 := v }
  | .trg1 => { u with mark1 := v }

/-- The runtime record of a RUNNING or PAUSED list (R105). -/
def ListState.runtime? : ListState → Option Runtime
  | .running r => some r
  | .paused r => some r
  | .empty | .loaded | .armed _ => none

/-- The runtime record changed in place, RUNNING or PAUSED as the list was. -/
def ListState.mapRuntime (f : Runtime → Runtime) : ListState → ListState
  | .running r => .running (f r)
  | .paused r => .paused (f r)
  | .empty => .empty
  | .loaded => .loaded
  | .armed l => .armed l

/-- The run phase of a current step, by the drive its move left (R106, R114). -/
def Drive.stepPhase : Drive → RunPhase
  | .moving _ => .move
  | .checking _ => .check
  | .steady => .hold

/-- The timer of a dwell: a dwell of 0 is met from the start (R116). -/
def dwellTimerOf (dwell : Word16) : Option Word16 := if dwell = 0 then none else some dwell

/-- A step that holds on a line whose edge mark is the current time tag counts that edge (R117). -/
def ChannelUnit.markedEdge (tag : Word32) (hold : HoldOn) (u : ChannelUnit) : Bool :=
  match hold.line with
  | none => false
  | some l => decide (u.mark l = some tag)

/-- A counted edge mark becomes absent (R117). -/
def ChannelUnit.useMark (tag : Word32) (hold : HoldOn) (u : ChannelUnit) : ChannelUnit :=
  match hold.line with
  | none => u
  | some l => if u.mark l = some tag then u.setMark l none else u

/-- The step at the index of `r` starts on a RUNNING list (R113). A blank slot cannot be reached (R103): the list would be made
LOADED (log 12). -/
def ChannelUnit.startStep (tag : Word32) (r : Runtime) (u : ChannelUnit) : ChannelUnit :=
  match u.slots[r.index] with
  | none => { u with list := .loaded }
  | some st =>
    let moved := (u.useMark tag st.hold).startMove st.target .step st.rate st.check
    { moved with
      list := .running
        { r with
          phase := moved.drive.stepPhase
          dwellTimer := dwellTimerOf st.dwell
          triggerSeen := u.markedEdge tag st.hold
          proceedSeen := false } }

/-- A pass begins with step 0 (R125, R127, R132). -/
def ChannelUnit.beginPass (tag : Word32) (r : Runtime) (u : ChannelUnit) : ChannelUnit :=
  u.startStep tag { r with passStart := tag, index := 0 }

/-- The hold condition of a step is met (R119). -/
def Runtime.holdMet (r : Runtime) : HoldOn → Bool
  | .none => true
  | .trg0 | .trg1 => r.triggerSeen
  | .proceed => r.proceedSeen

/-- The current step of a RUNNING list whose three end conditions hold (R119). -/
def ChannelUnit.endingStep (u : ChannelUnit) : Option (Runtime × StepRecord) :=
  match u.list with
  | .running r =>
    match u.slots[r.index] with
    | none => none
    | some st => if r.phase = .hold ∧ r.dwellTimer = none ∧ r.holdMet st.hold then some (r, st) else none
  | .empty | .loaded | .armed _ | .paused _ => none

/-- A list ends at a pass end (R130). -/
def ChannelUnit.endList (r : Runtime) (u : ChannelUnit) : Progress :=
  let loaded := { u with list := .loaded }
  match r.pendingStop with
  | none => (loaded, [.record (.listEnd r.passCount), .notice .list])
  | some .request => (loaded, [.record (.listStopped .request (some r.passCount) none), .notice .list])
  | some .fault =>
    (loaded.applyAction u.config.policy.faultAction,
      [.record (.listStopped .fault (some r.passCount) none), .notice .list])

/-- The larger of the period and 1, less the pass duration, or 0 (R131). -/
def gapAfter (period : Word16) (duration : Word32) : Word16 :=
  BitVec.ofNat 16 (max period.toNat 1 - duration.toNat)

/-- A pass count, one higher unless it stands at 65535 (R131). -/
def nextPassCount (n : Word16) : Word16 := if n = 65535 then n else n + 1

/-- A CYCLIC list with no stop pending ends a pass and prepares the next (R131). -/
def ChannelUnit.preparePass (tag : Word32) (r : Runtime) (u : ChannelUnit) : Progress :=
  let duration := tag - r.passStart
  let overrun := decide (u.descriptor.period ≠ 0) && decide (u.descriptor.period.toNat < duration.toNat)
  let effects := if u.descriptor.recordPasses then [.record (.passDone r.passCount overrun)] else []
  let next := { r with passCount := nextPassCount r.passCount, index := 0 }
  let gap := gapAfter u.descriptor.period duration
  if gap = 0 then (u.beginPass tag next, effects)
  else ({ u with list := .running { next with phase := .gap gap } }, effects)

/-- The end of a pass (R129). -/
def ChannelUnit.endPass (tag : Word32) (r : Runtime) (u : ChannelUnit) : Progress :=
  match u.descriptor.mode, r.pendingStop with
  | .cyclic, none => u.preparePass tag r
  | _, _ => u.endList r

/-- The STEP_DONE record of a step, with the values of its check when it has one (R120, R87). -/
def ChannelUnit.stepDone (r : Runtime) (st : StepRecord) (u : ChannelUnit) : List ChannelEffect :=
  if st.record then
    [.record (.stepDone r.index r.passCount u.code
      (if st.check then u.lastCheck.map (fun k => (k.attempts, k.verdict)) else none))]
  else []

/-- The end of one step: the next one starts, or the pass ends (R120). -/
def ChannelUnit.endStep (tag : Word32) (r : Runtime) (st : StepRecord) (u : ChannelUnit) : Progress :=
  if h : r.index.val + 1 < 16 then
    if r.index.val + 1 < u.descriptor.count.toNat then
      (u.startStep tag { r with index := ⟨r.index.val + 1, h⟩ }, u.stepDone r st)
    else
      let ended := u.endPass tag r
      (ended.1, u.stepDone r st ++ ended.2)
  else
    let ended := u.endPass tag r
    (ended.1, u.stepDone r st ++ ended.2)

/-- Steps end, one after another, as long as the current one meets its conditions: at most `n` of them (R119). -/
def ChannelUnit.endSteps (tag : Word32) : Nat → ChannelUnit → Progress
  | 0, u => (u, [])
  | n + 1, u =>
    match u.endingStep with
    | none => (u, [])
    | some (r, st) =>
      let once := u.endStep tag r st
      let rest := ChannelUnit.endSteps tag n once.1
      (rest.1, once.2 ++ rest.2)

/-- The end of every event that can bring a step to its end: a chain of steps runs through in the one event (R119). -/
def ChannelUnit.finish (tag : Word32) (u : ChannelUnit) : Progress := u.endSteps tag Config.chainBound

/-- A list begins running with a new runtime record (R125, R127). -/
def ChannelUnit.startList (tag : Word32) (u : ChannelUnit) : Progress :=
  (u.beginPass tag
    { index := 0, passCount := 0, phase := .move, dwellTimer := none, triggerSeen := false, proceedSeen := false,
      passStart := tag, pendingStop := none }).finish tag

/-- A list is armed for a line (R126). -/
def ChannelUnit.armList (l : Line) (u : ChannelUnit) : Progress := ({ u with list := .armed l }, [])

/-- START, on one channel of its set (R125, R126). -/
def ChannelUnit.start (tag : Word32) (source : Option Line) (u : ChannelUnit) : Progress :=
  match source with
  | none => u.startList tag
  | some l => u.armList l

/-- A move advance that is due (R77); the end of a step move is told to the list (R114). -/
def ChannelUnit.moveAdvance (tag : Word32) (u : ChannelUnit) : Progress :=
  match u.drive with
  | .moving mv =>
    if mv.advanceDue then
      let code := advanceCode u.code mv.target mv.rate
      if code = mv.target then
        let ended := { u with code := code }.endMove mv.origin mv.checkRequired
        if mv.origin = .step then
          ({ ended with list := ended.list.mapRuntime (fun r => { r with phase := ended.drive.stepPhase }) }).finish tag
        else (ended, [])
      else ({ u with code := code, drive := .moving { mv with advanceDue := false } }, [])
    else (u, [])
  | .steady | .checking _ => (u, [])

/-- The step index and pass count that the records of a step's check carry (R84, R86). -/
def ChannelUnit.checkedStep (origin : CheckOrigin) (u : ChannelUnit) : Option (Fin 16 × Word16) :=
  match origin with
  | .write => none
  | .step => u.list.runtime?.map (fun r => (r.index, r.passCount))

/-- A check passes (R84, R115). The previous verdict is present exactly from attempt 2 (R72). -/
def ChannelUnit.checkPass (tag : Word32) (ck : Check) (v : Verdict) (u : ChannelUnit) : Progress :=
  let ended := { u with drive := .steady, lastCheck := some { attempts := ck.attempt, verdict := v, outcome := .passed } }
  let effects := match ck.previous with
    | none => []
    | some before => [.record (.checkRecovered ck.attempt before u.activeStage u.code (u.checkedStep ck.origin))]
  match ck.origin with
  | .write => (ended, effects)
  | .step =>
    let rest := ({ ended with list := ended.list.mapRuntime (fun r => { r with phase := .hold }) }).finish tag
    (rest.1, effects ++ rest.2)

/-- The on-fault rule, on a list whose step's check has failed (R133, R134, R135, R136). -/
def ChannelUnit.onFault (tag : Word32) (u : ChannelUnit) : Progress :=
  match u.list.runtime? with
  | none => (u, [])
  | some r =>
    match u.descriptor.onFault with
    | .stop =>
      ({ u with list := .loaded }.applyAction u.config.policy.faultAction,
        [.record (.listStopped .fault (some r.passCount) (some r.index)), .notice .list])
    | .finishPass =>
      ({ u with list := u.list.mapRuntime (fun r => { r with phase := .hold, pendingStop := some .fault }) }).finish tag
    | .continue => ({ u with list := u.list.mapRuntime (fun r => { r with phase := .hold }) }).finish tag

/-- A check fails (R86). -/
def ChannelUnit.checkFail (tag : Word32) (ck : Check) (v : Verdict) (u : ChannelUnit) : Progress :=
  let ended :=
    { u with
      drive := .steady, faultLatch := true
      lastCheck := some { attempts := ck.attempt, verdict := v, outcome := .failed } }
  let effects :=
    [.record (.checkFailed ck.attempt v u.activeStage u.code (u.checkedStep ck.origin)), .notice .fault]
  match ck.origin with
  | .write => (ended.applyAction u.config.policy.faultAction, effects)
  | .step =>
    let rest := ended.onFault tag
    (rest.1, effects ++ rest.2)

/-- A settle expiry that is due, with the raw verdict the readback monitor reports (R83 to R86). -/
def ChannelUnit.settleExpiry (tag : Word32) (raw : FaultSet) (u : ChannelUnit) : Progress :=
  match u.drive with
  | .checking ck =>
    if ck.settleRemaining = 0 then
      let v := verdictOf u.config.policy.counted raw
      if v.counted = 0 then u.checkPass tag ck v
      else if ck.attempt ≤ u.config.policy.retryLimit then (u.retry ck v, [])
      else u.checkFail tag ck v
    else (u, [])
  | .steady | .moving _ => (u, [])

/-- A dwell expiry that is due (R116). -/
def ChannelUnit.dwellExpiry (tag : Word32) (u : ChannelUnit) : Progress :=
  match u.list with
  | .running r =>
    if r.dwellTimer = some 0 then { u with list := .running { r with dwellTimer := none } }.finish tag else (u, [])
  | .empty | .loaded | .armed _ | .paused _ => (u, [])

/-- A gap expiry that is due: the next pass begins (R132). -/
def ChannelUnit.gapExpiry (tag : Word32) (u : ChannelUnit) : Progress :=
  match u.list with
  | .running r => if r.phase = .gap 0 then (u.beginPass tag r).finish tag else (u, [])
  | .empty | .loaded | .armed _ | .paused _ => (u, [])

/-- Whether the current step of a RUNNING list holds on `h` (R117, R118): no step is current in phase GAP. -/
def ChannelUnit.holdsOn (h : HoldOn) (u : ChannelUnit) : Option Runtime :=
  match u.list with
  | .running r =>
    match r.phase, u.slots[r.index] with
    | .gap _, _ => none
    | _, some st => if st.hold = h then some r else none
    | _, none => none
  | .empty | .loaded | .armed _ | .paused _ => none

/-- The hold on a trigger line (R101). -/
def lineHold : Line → HoldOn
  | .trg0 => .trg0
  | .trg1 => .trg1

/-- A trigger edge event on the line: used to start an ARMED list or to set trigger-seen, and marked otherwise (R117, R127). -/
def ChannelUnit.edge (tag : Word32) (l : Line) (u : ChannelUnit) : Progress :=
  if u.list = .armed l then u.startList tag
  else
    match u.holdsOn (lineHold l) with
    | some r =>
      if r.triggerSeen then (u.setMark l (some tag), [])
      else { u with list := .running { r with triggerSeen := true } }.finish tag
    | none => (u.setMark l (some tag), [])

/-- Whether a PROCEED sets proceed-seen on the channel (R146). -/
def ChannelUnit.proceeds (u : ChannelUnit) : Bool :=
  match u.holdsOn .proceed with
  | some r => !r.proceedSeen
  | none => false

/-- PROCEED, on one channel of its set (R118, R146). -/
def ChannelUnit.proceed (tag : Word32) (u : ChannelUnit) : Progress :=
  match u.holdsOn .proceed with
  | some r => if r.proceedSeen then (u, []) else { u with list := .running { r with proceedSeen := true } }.finish tag
  | none => (u, [])

/-- The step index a stop at once records: none in phase GAP (R138). -/
def Runtime.stopIndex (r : Runtime) : Option (Fin 16) :=
  match r.phase with
  | .gap _ => none
  | .move | .check | .hold => some r.index

/-- STOP of mode NOW, on one channel of its set (R138). -/
def ChannelUnit.stopNow (u : ChannelUnit) : Progress :=
  let stopped := { u with drive := .steady, list := .loaded }
  match u.list with
  | .armed _ => ({ u with list := .loaded }, [.record (.listStopped .request none none), .notice .list])
  | .running r | .paused r =>
    match r.pendingStop with
    | some .fault =>
      (stopped.applyAction u.config.policy.faultAction,
        [.record (.listStopped .fault (some r.passCount) r.stopIndex), .notice .list])
    | some .request | none =>
      (stopped, [.record (.listStopped .request (some r.passCount) r.stopIndex), .notice .list])
  | .empty | .loaded => (u, [])

/-- A stop becomes pending: a pending REQUEST stays REQUEST and a pending FAULT stays FAULT (R139). -/
def Runtime.requestStop (r : Runtime) : Runtime := { r with pendingStop := some (r.pendingStop.getD .request) }

/-- STOP of mode AT_PASS_END, on one channel of its set (R139). -/
def ChannelUnit.stopAtPassEnd (u : ChannelUnit) : Progress :=
  match u.list with
  | .armed _ => u.stopNow
  | .running r | .paused r =>
    match r.phase with
    | .gap _ => u.stopNow
    | .move | .check | .hold => ({ u with list := u.list.mapRuntime Runtime.requestStop }, [])
  | .empty | .loaded => (u, [])

/-- The frozen dwell timer: one frozen at 0 is met (R145). -/
def frozenDwell (d : Option Word16) : Option Word16 := if d = some 0 then none else d

/-- PAUSE, on one channel of its set (R141). -/
def ChannelUnit.pause (u : ChannelUnit) : Progress :=
  match u.list with
  | .running r =>
    let paused := ListState.paused { r with dwellTimer := frozenDwell r.dwellTimer }
    match r.phase with
    | .move => ({ u.stopMove with list := paused }, [])
    | .check | .hold | .gap _ => ({ u with list := paused }, [])
  | .empty | .loaded | .armed _ | .paused _ => (u, [])

/-- A step whose move a pause stopped goes on: a new move over the rest of the distance (R143). -/
def ChannelUnit.continueMove (r : Runtime) (u : ChannelUnit) : ChannelUnit :=
  match u.slots[r.index] with
  | none => { u with list := .loaded }
  | some st =>
    let moved := u.startMove st.target .step st.rate st.check
    { moved with list := .running { r with phase := moved.drive.stepPhase } }

/-- RESUME of mode CONTINUE, on one channel of its set (R143). -/
def ChannelUnit.resumeContinue (tag : Word32) (u : ChannelUnit) : Progress :=
  match u.list with
  | .paused r =>
    match r.phase with
    | .move => (u.continueMove r).finish tag
    | .check | .hold => { u with list := .running r }.finish tag
    | .gap g => if g = 0 then (u.beginPass tag r).finish tag else ({ u with list := .running r }, [])
  | .empty | .loaded | .armed _ | .running _ => (u, [])

/-- RESUME of mode REPEAT, on one channel of its set: the current step starts anew; in phase GAP it acts as CONTINUE (R144). -/
def ChannelUnit.resumeRepeat (tag : Word32) (u : ChannelUnit) : Progress :=
  match u.list with
  | .paused r =>
    match r.phase with
    | .move | .check | .hold => (u.startStep tag r).finish tag
    | .gap _ => u.resumeContinue tag
  | .empty | .loaded | .armed _ | .running _ => (u, [])

/-- A remaining time one millisecond lower. -/
def countDown (w : Word16) : Word16 := if w = 0 then 0 else w - 1

/-- The drive one millisecond later: an advance falls due, a settle timer counts down (R77, R82). -/
def Drive.tick : Drive → Drive
  | .steady => .steady
  | .moving mv => .moving { mv with advanceDue := true }
  | .checking ck =>
    .checking { ck with settleRemaining := if ck.settleRemaining = 0 then 0 else ck.settleRemaining - 1 }

/-- The run phase one millisecond later: the gap timer counts down (R132). -/
def RunPhase.tick : RunPhase → RunPhase
  | .gap g => .gap (countDown g)
  | .move => .move
  | .check => .check
  | .hold => .hold

/-- The list one millisecond later: the dwell and gap timers of a RUNNING list count down, those of a PAUSED one are frozen
(R116, R132, R141). -/
def ListState.tick : ListState → ListState
  | .running r => .running { r with dwellTimer := r.dwellTimer.map countDown, phase := r.phase.tick }
  | .paused r => .paused r
  | .empty => .empty
  | .loaded => .loaded
  | .armed l => .armed l

/-- The channel unit one millisecond later (R181). -/
def ChannelUnit.tick (u : ChannelUnit) : ChannelUnit := { u with drive := u.drive.tick, list := u.list.tick }

/-- A move advance or a settle expiry is due in this millisecond (R77, R82). -/
def Drive.due : Drive → Bool
  | .steady => false
  | .moving mv => mv.advanceDue
  | .checking ck => decide (ck.settleRemaining = 0)

/-- A dwell or gap expiry is due in this millisecond (R116, R132). -/
def ListState.due : ListState → Bool
  | .running r => decide (r.dwellTimer = some 0) || decide (r.phase = .gap 0)
  | .empty | .loaded | .armed _ | .paused _ => false

/-- An event of the channel's own timers is due in this millisecond (R182). -/
def ChannelUnit.due (u : ChannelUnit) : Bool := u.drive.due || u.list.due

/-- The list after a soft reset (R123). -/
def ListState.softReset : ListState → ListState
  | .empty => .empty
  | .loaded | .armed _ | .running _ | .paused _ => .loaded

/-- The channel unit's part of a soft reset (R71, R100, R123). -/
def ChannelUnit.softReset (u : ChannelUnit) : ChannelUnit :=
  { u with
    drive := .steady, faultLatch := false, lastCheck := none, list := u.list.softReset, mark0 := none, mark1 := none }

/-- A step record is written into a slot (R108). -/
def ChannelUnit.loadStep (slot : Fin 16) (st : StepRecord) (u : ChannelUnit) : ChannelUnit :=
  { u with slots := u.slots.set slot (some st) }

/-- The descriptor is replaced and the list made LOADED (R110). -/
def ChannelUnit.setList (d : Descriptor) (u : ChannelUnit) : ChannelUnit := { u with descriptor := d, list := .loaded }

/-- Every slot with an index below the count holds a step record (R109). -/
def ChannelUnit.slotsLoaded (count : Nat) (u : ChannelUnit) : Bool :=
  (u.slots.toList.take count).all Option.isSome

end Sys2Proof.Machine
end

