-- ==== Sys2Proof/Machine/Ops.lean ====
section
/-!
DEFINITION. The named operations on the state that the commands share: reading and updating a block, the log's append, the
notices, the claim table's answers to other blocks, lease renewal, orders and events at channel units, and the frame end with
the check order at the head of every request.
-/

namespace Sys2Proof.Machine

/-- What a command answers. -/
abbrev Result := Host.Outcome State Fault Refusal

/-! ## One value for each master -/

/-- The value of a master. -/
def PerMaster.get {α : Type} (p : PerMaster α) : Master → α
  | .m0 => p.m0
  | .m1 => p.m1
  | .m2 => p.m2

/-- The value of a master replaced. -/
def PerMaster.set {α : Type} (p : PerMaster α) (m : Master) (a : α) : PerMaster α :=
  match m with
  | .m0 => { p with m0 := a }
  | .m1 => { p with m1 := a }
  | .m2 => { p with m2 := a }

/-- The value of a master changed by a function. -/
def PerMaster.modify {α : Type} (p : PerMaster α) (m : Master) (f : α → α) : PerMaster α := p.set m (f (p.get m))

/-- Every value changed by a function that is told the master. -/
def PerMaster.mapWith {α β : Type} (f : Master → α → β) (p : PerMaster α) : PerMaster β :=
  ⟨f .m0 p.m0, f .m1 p.m1, f .m2 p.m2⟩

/-- A vector with every element changed by a function. -/
def mapVector {α : Type} {n : Nat} (f : α → α) (v : Vector α n) : Vector α n :=
  ⟨⟨v.toList.map f⟩, by simp⟩

/-! ## Blocks of the state -/

/-- The channel unit of a channel. -/
def State.channel (s : State) (c : Ch) : ChannelUnit := s.channels[c]

/-- The channel unit of a channel replaced. -/
def State.setChannel (s : State) (c : Ch) (u : ChannelUnit) : State := { s with channels := s.channels.set c u }

/-- The port of a master. -/
def State.port (s : State) (m : Master) : Port := s.ports.get m

/-- The port of a master replaced. -/
def State.setPort (s : State) (m : Master) (p : Port) : State := { s with ports := s.ports.set m p }

/-- The notices of a master. -/
def State.notice (s : State) (m : Master) : NoticeState := s.notices.get m

/-- The notices of a master changed. -/
def State.onNotices (s : State) (m : Master) (f : NoticeState → NoticeState) : State :=
  { s with notices := s.notices.modify m f }

/-- A notice becomes pending for a master (R161). -/
def State.raise (m : Master) (k : Notice) (s : State) : State := s.onNotices m (NoticeState.raise k)

/-- The entry at a position of the claim table. -/
def State.entry (s : State) (p : Pos) : Option ClaimEntry := s.claims.entries[p]

/-- The claim table replaced. -/
def State.setClaims (s : State) (t : ClaimTable) : State := { s with claims := t }

/-- The entry at a position replaced. -/
def ClaimTable.setEntry (p : Pos) (e : Option ClaimEntry) (t : ClaimTable) : ClaimTable :=
  { t with entries := t.entries.set p e }

/-- The entry at a position leaves the pending order; those behind it close up (R5). -/
def ClaimTable.dequeue (p : Pos) (t : ClaimTable) : ClaimTable := { t with order := t.order.filter (fun q => q ≠ p) }

/-- The entry at a position is removed, from the pending order too, and its position becomes free (R1, R5). -/
def ClaimTable.remove (p : Pos) (t : ClaimTable) : ClaimTable := (t.setEntry p none).dequeue p

/-- A trigger line of the trigger unit. -/
def State.line (s : State) : Line → TriggerLine
  | .trg0 => s.trg0
  | .trg1 => s.trg1

/-- A trigger line replaced. -/
def State.setLine (s : State) (l : Line) (t : TriggerLine) : State :=
  match l with
  | .trg0 => { s with trg0 := t }
  | .trg1 => { s with trg1 := t }

/-! ## The completion log (R151 to R154) -/

/-- A master's unread count (R153). -/
def CompletionLog.unread (l : CompletionLog) (r : LogReader) : Nat := (l.nextSeq - r.cursor).toNat

/-- A cursor that designated the removed record is carried forward, and its gap flag set (R152). -/
def LogReader.carry (removed oldest : Word16) (r : LogReader) : LogReader :=
  if r.cursor = removed then { r with cursor := oldest, gap := true } else r

/-- Room for one more record: a full log loses its oldest (R152). -/
def CompletionLog.makeRoom (l : CompletionLog) : CompletionLog :=
  if l.records.length < Config.logCapacity then l
  else
    match l.records with
    | removed :: oldest :: rest =>
      { l with
        records := oldest :: rest
        readers := l.readers.mapWith (fun _ r => r.carry removed.seq oldest.seq) }
    | _ => l

/-- A record placed after the newest (R151). -/
def CompletionLog.append (tag : Word32) (body : RecordBody) (l : CompletionLog) : CompletionLog :=
  let room := l.makeRoom
  { room with
    records := room.records ++ [{ seq := room.nextSeq, tag := tag, body := body }]
    nextSeq := room.nextSeq + 1 }

/-- The threshold comparison: a threshold above 0 that the unread count has reached (R154). -/
def CompletionLog.reached (l : CompletionLog) (r : LogReader) : Bool :=
  decide (r.threshold ≠ 0) && decide (r.threshold.toNat ≤ l.unread r)

/-- A record is appended, with its threshold comparison for each master (R151, R154). -/
def State.append (body : RecordBody) (s : State) : State :=
  let log := s.log.append s.timeTag body
  { s with
    log := log
    notices := s.notices.mapWith (fun m n => if log.reached (log.readers.get m) then n.raise .log else n) }

/-! ## The claim table's answers (R3, R4) -/

/-- The eight positions. -/
def allPositions : List Pos := [0, 1, 2, 3, 4, 5, 6, 7]

/-- An entry in force: HELD or OFFERED (R1). -/
def ClaimEntry.inForce (e : ClaimEntry) : Bool :=
  match e.state with
  | .pending _ _ => false
  | .held _ _ | .offered _ _ _ _ => true

/-- An entry in force that holds a channel (R3). -/
def ClaimEntry.holds (e : ClaimEntry) (c : Ch) : Bool := e.inForce && e.set.getLsbD c.val

/-- The entry in force whose set holds the channel, if any (R3). -/
def ClaimTable.holding (t : ClaimTable) (c : Ch) : Option ClaimEntry :=
  allPositions.findSome? (fun p => (t.entries[p]).filter (fun e => e.holds c))

/-- The holder of a channel; none when it is free (R3). -/
def State.holder (s : State) (c : Ch) : Option Master := (s.claims.holding c).map ClaimEntry.master

/-- A master holds every channel of the set, through one entry or several (R3). -/
def State.holdsAll (s : State) (m : Master) (set : ChannelSet) : Bool :=
  (channelsOf set).all (fun c => decide (s.holder c = some m))

/-- A master is BARRED (R37). -/
def State.barred (s : State) (m : Master) : Bool := decide (s.claims.revoke.get m = .barred)

/-- The entry that carries a claim number, with its position (R6). -/
def ClaimTable.find (t : ClaimTable) (number : Byte) : Option (Pos × ClaimEntry) :=
  allPositions.findSome? (fun p => ((t.entries[p]).filter (fun e => e.number = number)).map (fun e => (p, e)))

/-- An entry's place in the pending order, 1 for the oldest (R5). -/
def ClaimTable.place (t : ClaimTable) (p : Pos) : Nat := t.order.idxOf p + 1

/-- An entry with its lease renewed (R19). -/
def ClaimEntry.renew (e : ClaimEntry) : ClaimEntry :=
  match e.state with
  | .pending _ _ => e
  | .held _ tag => { e with state := .held e.leasePeriod tag }
  | .offered _ tag target remaining => { e with state := .offered e.leasePeriod tag target remaining }

/-- The lease remaining of an entry in force (R2). -/
def ClaimEntry.leaseRemaining (e : ClaimEntry) : Option Word16 :=
  match e.state with
  | .pending _ _ => none
  | .held lease _ | .offered lease _ _ _ => some lease

/-- The entry renews when its master is `m` and a channel of its set is named (R19). -/
def ClaimEntry.renewFor (m : Master) (set : ChannelSet) (e : ClaimEntry) : ClaimEntry :=
  if e.master = m ∧ e.set &&& set ≠ 0 then e.renew else e

/-- The leases of every entry through which `m` holds a channel of the set are renewed, once each (R19). -/
def State.renewLeases (m : Master) (set : ChannelSet) (s : State) : State :=
  s.setClaims { s.claims with entries := mapVector (Option.map (ClaimEntry.renewFor m set)) s.claims.entries }

/-- The combined digest of a set: one CRC-16 over the records in ascending channel order (R67). -/
def State.combinedDigest (s : State) (set : ChannelSet) : Word16 :=
  crc16 ((channelsOf set).flatMap (fun c => (s.channel c).config.bytes))

/-! ## Orders and events at channel units -/

/-- A channel unit changed by an order or a request that asks nothing of the other blocks. -/
def State.onChannel (c : Ch) (f : ChannelUnit → ChannelUnit) (s : State) : State := s.setChannel c (f (s.channel c))

/-- An order to each channel of a set (R22, R33). -/
def State.orderAll (set : ChannelSet) (f : ChannelUnit → ChannelUnit) (s : State) : State :=
  (channelsOf set).foldl (fun s c => s.onChannel c f) s

/-- A record or a notice of a channel: both concern the channel's holder at that moment (R149, R161); a channel that is free
writes no record and sets no notice. -/
def State.emit (c : Ch) (s : State) (e : ChannelEffect) : State :=
  match s.holder c with
  | none => s
  | some m =>
    match e with
    | .record r => s.append (.channel m c r)
    | .notice k => s.raise m k

/-- An event at one channel unit, and what it asks of the log and the notice unit, in order. -/
def State.channelEvent (c : Ch) (f : ChannelUnit → Progress) (s : State) : State :=
  (f (s.channel c)).2.foldl (State.emit c) (s.setChannel c (f (s.channel c)).1)

/-- An event at each channel of a list, in turn. -/
def State.channelEvents (cs : List Ch) (f : ChannelUnit → Progress) (s : State) : State :=
  cs.foldl (fun s c => s.channelEvent c f) s

/-! ## Frames and requests -/

/-- The error a frame that ends now has: LENGTH, then CRC (R171). -/
def Port.frameError (p : Port) : Option FrameErrorKind :=
  if p.bitCount ≠ Config.frameBits then some .length
  else if crc8 (p.bytes.take 23) ≠ byteAt p.bytes 23 then some .crc
  else none

/-- The frame end at a port, as the command that names it: none while no frame is in progress (R170) or the part is held in
full reset (R186), else what the frame is (R171). -/
def State.frameEnd (s : State) (m : Master) : Option Instr :=
  if s.inReset then none
  else if (s.port m).inProgress then
    match (s.port m).frameError with
    | some _ => some (.frameError m)
    | none => some (decodeFrame m (s.port m).bytes)
  else none

/-- The answer to a request (R173). -/
structure Answer where
  status : Status
  results : List Byte
  deriving DecidableEq, Repr

/-- The answer to a request that is taken, with its results (R192). -/
def Answer.ok (results : List Byte) : Answer := { status := .ok, results := results }

/-- The answer to a request that is refused: no results (R192). -/
def Answer.refuse (status : Status) : Answer := { status := status, results := [] }

/-- The frame-in-progress flag is cleared (R171). -/
def Port.endFrame (p : Port) : Port := { p with inProgress := false }

/-- The response buffer is replaced (R173). -/
def Port.respond (code : Byte) (a : Answer) (p : Port) : Port :=
  { p with response := sealFrame ([code, a.status.code] ++ a.results) }

/-- The frame-in-progress flag of a master's port is cleared (R171). -/
def State.endFrame (m : Master) (s : State) : State := s.setPort m (s.port m).endFrame

/-- An answer is placed in the response buffer of a master's port (R173). -/
def State.respond (m : Master) (code : Byte) (a : Answer) (s : State) : State := s.setPort m ((s.port m).respond code a)

/-- The event a frame-end command names, at the port of `m`. When it is not the frame end at hand, the event does not occur and
nothing changes (log 1). -/
def atFrameEnd (i : Instr) (m : Master) (take : State → State) (s : State) : Result :=
  if s.frameEnd m = some i then .next (take (s.endFrame m)) else .next s

/-- The head of the check order of every request: its parameters, then the revoke state of its sender; then the owning rule
takes or refuses it (R174, R38). -/
def judged (i : Instr) (m : Master) (take : State → State × Answer) (s : State) : State × Answer :=
  if i.parametersOk = false then (s, .refuse .badParameter)
  else if i.barrable = true ∧ s.barred m = true then (s, .refuse .barred)
  else take s

/-- A request is judged, and its answer replaces the response buffer: one event (R171, R173). -/
def answered (i : Instr) (m : Master) (take : State → State × Answer) (s : State) : State :=
  (judged i m take s).1.respond m (i.requestCode.getD 0) (judged i m take s).2

/-- A request at the frame end of its port (R171, R174). -/
def request (i : Instr) (m : Master) (take : State → State × Answer) (s : State) : Result :=
  atFrameEnd i m (answered i m take) s

end Sys2Proof.Machine
end

