-- ==== Sys2Proof/Machine/Channels.lean ====
section
/-!
DEFINITION. The requests of one channel's configuration and drive (Chapters 3 and 4), and the events of a channel's own timers.
-/

namespace Sys2Proof.Machine

/-- A request on one channel, taken only from its holder (R4). -/
def ownChannel (m : Master) (c : Ch) (s : State) (take : State × Answer) : State × Answer :=
  if s.holder c = some m then take else (s, .refuse .notHolder)

/-- The drive and list states in which a configuration record may change (R59, R62). -/
def ChannelUnit.configurable (u : ChannelUnit) : Bool := decide (u.drive = .steady) && !u.list.active

/-- A configuration change, told to the log with the new digest (R60, R63). -/
def configChange (f : ChannelUnit → ChannelUnit) (u : ChannelUnit) : Progress :=
  (f u, [.record (.configChanged (f u).digest)])

/-- A configuration change that is taken: the channel unit, the record, the renewal and the answer (R60, R63). -/
def takeConfigChange (m : Master) (c : Ch) (f : ChannelUnit → ChannelUnit) (s : State) : State × Answer :=
  ((s.channelEvent c (configChange f)).renewLeases m (onlyChannel c), .ok (bytes16 (f (s.channel c)).digest))

/-- The checks and the taking of a SET_RANGE (R59, R60). -/
def takeSetRange (m : Master) (c : Ch) (r : RangePart) (s : State) : State × Answer :=
  ownChannel m c s <|
    if (s.channel c).configurable = false then (s, .refuse .wrongState)
    else if r.holds (s.channel c).code = false then (s, .refuse .limit)
    else takeConfigChange m c (ChannelUnit.setRange r) s

/-- SET_RANGE (R58 to R60). -/
def execSetRange (m : Master) (channel : Byte) (low high fallback maxRate : Word16) (s : State) : Result :=
  request (.setRange m channel low high fallback maxRate) m
    (takeSetRange m (chOf channel) (rangeOf low high fallback maxRate)) s

/-- The checks and the taking of a SET_POLICY (R62, R63). -/
def takeSetPolicy (m : Master) (c : Ch) (p : PolicyPart) (s : State) : State × Answer :=
  ownChannel m c s <|
    if (s.channel c).configurable = false then (s, .refuse .wrongState)
    else takeConfigChange m c (ChannelUnit.setPolicy p) s

/-- SET_POLICY (R62, R63). -/
def execSetPolicy (m : Master) (channel settle retry packed counted fault revoke : Byte) (s : State) : Result :=
  request (.setPolicy m channel settle retry packed counted fault revoke) m
    (takeSetPolicy m (chOf channel) (policyOf settle retry packed counted fault revoke)) s

/-- The checks and the taking of a WRITE (R79, R80). -/
def takeWrite (m : Master) (c : Ch) (code rate : Word16) (s : State) : State × Answer :=
  ownChannel m c s <|
    if (s.channel c).list.active then (s, .refuse .wrongState)
    else if (s.channel c).faultLatch then (s, .refuse .faulted)
    else if (s.channel c).config.range.holds code = false then (s, .refuse .limit)
    else
      ((s.onChannel c (ChannelUnit.write code rate)).renewLeases m (onlyChannel c),
        .ok (bytes16 (effectiveRate rate (s.channel c).config.range.maxRate) ++
          [((s.channel c).write code rate).drive.code]))

/-- WRITE (R79, R80). -/
def execWrite (m : Master) (channel : Byte) (code rate : Word16) (s : State) : Result :=
  request (.write m channel code rate) m (takeWrite m (chOf channel) code rate) s

/-- The fault latch is cleared (R91). -/
def ChannelUnit.clearFault (u : ChannelUnit) : ChannelUnit := { u with faultLatch := false }

/-- The taking of a CLEAR_FAULT (R91). -/
def takeClearFault (m : Master) (c : Ch) (s : State) : State × Answer :=
  ownChannel m c s
    ((s.onChannel c ChannelUnit.clearFault).renewLeases m (onlyChannel c), .ok [flagByte (s.channel c).faultLatch])

/-- CLEAR_FAULT (R91). -/
def execClearFault (m : Master) (channel : Byte) (s : State) : Result :=
  request (.clearFault m channel) m (takeClearFault m (chOf channel)) s

/-- The answer of a READ_CHANNEL (R98, R193). -/
def takeReadChannel (c : Ch) (s : State) : State × Answer :=
  (s, .ok ((s.channel c).readout ((s.claims.holding c).map (fun e => (e.master, e.number)))))

/-- READ_CHANNEL (R98). -/
def execReadChannel (m : Master) (channel : Byte) (s : State) : Result :=
  request (.readChannel m channel) m (takeReadChannel (chOf channel)) s

/-- The answer of a READ_CONFIG (R65). -/
def takeReadConfig (c : Ch) (s : State) : State × Answer :=
  (s, .ok ((s.channel c).config.bytes ++ bytes16 (s.channel c).digest))

/-- READ_CONFIG (R65). -/
def execReadConfig (m : Master) (channel : Byte) (s : State) : Result :=
  request (.readConfig m channel) m (takeReadConfig (chOf channel)) s

/-- The answer of a READ_DIGEST (R69). -/
def takeReadDigest (set : ChannelSet) (s : State) : State × Answer :=
  (s, .ok (setBytes set ++ bytes16 (s.combinedDigest set)))

/-- READ_DIGEST (R69). -/
def execReadDigest (m : Master) (set : Word16) (s : State) : Result :=
  request (.readDigest m set) m (takeReadDigest (channelSetOf set)) s

/-! ## The channel's own timers -/

/-- An event of a channel's own timers; none while the part is held in full reset (R186). An event that is not due leaves the
channel as it is (log 1). -/
def State.channelTimer (c : Ch) (f : ChannelUnit → Progress) (s : State) : State :=
  if s.inReset then s else s.channelEvent c f

/-- MOVE_ADVANCE (R77). -/
def execMoveAdvance (c : Ch) (s : State) : Result := .next (s.channelTimer c (ChannelUnit.moveAdvance s.timeTag))

/-- SETTLE_EXPIRY (R83 to R86). -/
def execSettleExpiry (c : Ch) (verdict : FaultSet) (s : State) : Result :=
  .next (s.channelTimer c (ChannelUnit.settleExpiry s.timeTag verdict))

/-- DWELL_EXPIRY (R116). -/
def execDwellExpiry (c : Ch) (s : State) : Result := .next (s.channelTimer c (ChannelUnit.dwellExpiry s.timeTag))

/-- GAP_EXPIRY (R132). -/
def execGapExpiry (c : Ch) (s : State) : Result := .next (s.channelTimer c (ChannelUnit.gapExpiry s.timeTag))

end Sys2Proof.Machine
end

