-- ==== Sys2Proof/Machine/Grant.lean ====
section
/-!
DEFINITION. Grant evaluation (R11 to R15), and the creation and removal of claim entries (R1, R6).
-/

namespace Sys2Proof.Machine

/-- The claim number after `n`, 255 followed by 1 (R6). -/
def numberAfter (n : Byte) : Byte := if n = 255 then 1 else n + 1

/-- An entry carries the number (R6). -/
def ClaimTable.carries (t : ClaimTable) (n : Byte) : Bool := (t.find n).isSome

/-- The first number from `n` on that no entry carries (R6). -/
def ClaimTable.freeNumber (t : ClaimTable) : Nat → Byte → Byte
  | 0, n => n
  | k + 1, n => if t.carries n then t.freeNumber k (numberAfter n) else n

/-- The number the next entry gets (R6). -/
def ClaimTable.newNumber (t : ClaimTable) : Byte := t.freeNumber Config.numberCandidates t.nextNumber

/-- The lowest free position (R1). -/
def ClaimTable.freePosition (t : ClaimTable) : Option Pos := allPositions.find? (fun p => (t.entries[p]).isNone)

/-- The entry is PENDING (R1). -/
def ClaimEntry.isPending (e : ClaimEntry) : Bool := !e.inForce

/-- A master is the requester of a PENDING entry (R1). -/
def ClaimTable.hasPending (t : ClaimTable) (m : Master) : Bool :=
  allPositions.any (fun p => (t.entries[p]).any (fun e => e.isPending && decide (e.master = m)))

/-- An entry is created and appended at the tail of the pending order; its number is consumed (R6, R9). -/
def ClaimTable.create (p : Pos) (e : ClaimEntry) (t : ClaimTable) : ClaimTable :=
  { t.setEntry p (some e) with order := t.order ++ [p], nextNumber := numberAfter e.number }

/-- Every channel of the set is free (R3). -/
def State.allFree (s : State) (set : ChannelSet) : Bool := (channelsOf set).all (fun c => (s.holder c).isNone)

/-- The PENDING entry at the position shares no channel with the set. -/
def ClaimTable.clearOf (t : ClaimTable) (set : ChannelSet) (p : Pos) : Bool :=
  (t.entries[p]).all (fun e => decide (e.set &&& set = 0))

/-- The PENDING entry `e` at `p` is grantable: its channels are free, and no older entry still PENDING shares one (R12). -/
def State.grantable (s : State) (p : Pos) (e : ClaimEntry) : Bool :=
  s.allFree e.set && (s.claims.order.takeWhile (fun q => q ≠ p)).all (s.claims.clearOf e.set)

/-- A grant (R13). -/
def State.grant (p : Pos) (e : ClaimEntry) (s : State) : State :=
  ((s.setClaims ((s.claims.setEntry p (some { e with state := .held e.leasePeriod s.timeTag })).dequeue p)).raise
    e.master .granted).append (.claim e.master e.number e.set .granted)

/-- A waiting claim is refused, for its digest or at the end of its wait (R14, R17). -/
def State.refuseClaim (p : Pos) (e : ClaimEntry) (reason : RefuseReason) (s : State) : State :=
  ((s.setClaims (s.claims.remove p)).raise e.master .refused).append (.claim e.master e.number e.set (.refused reason))

/-- The digest that a waiting entry expects differs from the combined digest of its set (R14). -/
def State.digestDiffers (s : State) (set : ChannelSet) (expected : Option Word16) : Bool :=
  match expected with
  | none => false
  | some d => decide (d ≠ s.combinedDigest set)

/-- One visit of the walk (R12 to R14). -/
def State.visit (s : State) (p : Pos) : State :=
  match s.entry p with
  | none => s
  | some e =>
    match e.state with
    | .held _ _ | .offered _ _ _ _ => s
    | .pending _ expected =>
      if s.grantable p e then
        if s.digestDiffers e.set expected then s.refuseClaim p e .digest else s.grant p e
      else s

/-- Grant evaluation: the entries of the pending order, oldest first, each visited once (R12). -/
def State.grantEvaluation (s : State) : State := s.claims.order.foldl State.visit s

end Sys2Proof.Machine
end

