-- ==== Sys2Proof/Machine/Claims.lean ====
section
/-!
DEFINITION. The requests of the claim table (Chapters 1 and 2) and the expiries of its timers.
-/

namespace Sys2Proof.Machine

/-- The results of a CLAIM that is taken, formed after its grant evaluation (R10, R192). -/
def claimResults (p : Pos) (number : Byte) (s : State) : List Byte :=
  match s.entry p with
  | none => [number, 0x04, 0x02]
  | some e =>
    match e.state with
    | .pending _ _ => [number, 0x01, natByte (s.claims.place p)]
    | .held lease tag | .offered lease tag _ _ => [number, 0x02] ++ bytes32 tag ++ bytes16 lease

/-- The checks and the taking of a CLAIM (R8 to R10). -/
def takeClaim (m : Master) (set : ChannelSet) (lease : Word16) (wait : Option WaitTimer) (expected : Option Word16)
    (s : State) : State × Answer :=
  if s.claims.hasPending m then (s, .refuse .busy)
  else if (channelsOf set).any (fun c => decide (s.holder c = some m)) then (s, .refuse .overlap)
  else
    match s.claims.freePosition with
    | none => (s, .refuse .tableFull)
    | some p =>
      let number := s.claims.newNumber
      let e : ClaimEntry :=
        { number := number, master := m, set := set, leasePeriod := lease, state := .pending wait expected }
      let done := (s.setClaims (s.claims.create p e)).grantEvaluation
      (done, .ok (claimResults p number done))

/-- CLAIM (R7 to R10). -/
def execClaim (m : Master) (set lease wait : Word16) (presence : Byte) (digest : Word16) (s : State) : Result :=
  request (.claim m set lease wait presence digest) m
    (takeClaim m (channelSetOf set) lease (waitOf wait) (expectedOf presence digest)) s

/-- The checks 3 to 5 that RENEW and RELEASE make in the same order, and the entry when they pass (R18, R21). -/
def ownClaim (m : Master) (number : Byte) (s : State) (take : Pos → ClaimEntry → State × Answer) : State × Answer :=
  match s.claims.find number with
  | none => (s, .refuse .noClaim)
  | some (p, e) =>
    if e.master ≠ m then (s, .refuse .notHolder)
    else if e.inForce then take p e
    else (s, .refuse .wrongState)

/-- The taking of a RENEW (R18, R19). -/
def takeRenew (m : Master) (number : Byte) (s : State) : State × Answer :=
  ownClaim m number s fun p e =>
    (s.setClaims (s.claims.setEntry p (some e.renew)), .ok (bytes16 e.leasePeriod))

/-- RENEW (R18). -/
def execRenew (m : Master) (number : Byte) (s : State) : Result := request (.renew m number) m (takeRenew m number) s

/-- The taking of a RELEASE: orders, removal, record, grant evaluation (R22). -/
def takeRelease (m : Master) (number : Byte) (mode : ReleaseMode) (s : State) : State × Answer :=
  ownClaim m number s fun p e =>
    let ordered := s.orderAll e.set (ChannelUnit.releaseOrder mode)
    let removed := ordered.setClaims (ordered.claims.remove p)
    ((removed.append (.claim m e.number e.set (.released mode))).grantEvaluation, .ok [])

/-- RELEASE (R21, R22). -/
def execRelease (m : Master) (number mode : Byte) (s : State) : Result :=
  request (.release m number mode) m (takeRelease m number (releaseModeOf mode)) s

/-- The withdrawal of a PENDING claim (R26). -/
def withdrawClaim (p : Pos) (s : State) : State × Answer :=
  ((s.setClaims (s.claims.remove p)).grantEvaluation, .ok [0x01, 0x00, 0x00])

/-- The holder cancels its offer, and its lease is renewed (R49). -/
def cancelOffer (p : Pos) (e : ClaimEntry) (tag : Word32) (s : State) : State × Answer :=
  (s.setClaims (s.claims.setEntry p (some { e with state := .held e.leasePeriod tag })),
    .ok ([0x02] ++ bytes16 e.leasePeriod))

/-- An offer ends with its entry HELD by the same holder, whose HANDOFF notice gets the reason (R45, R50). -/
def endOffer (p : Pos) (e : ClaimEntry) (lease : Word16) (tag : Word32) (reason : HandoffReason) (s : State) : State :=
  (s.setClaims (s.claims.setEntry p (some { e with state := .held lease tag }))).onNotices e.master
    (NoticeState.raiseHandoff reason)

/-- The outcomes of a WITHDRAW, by the entry and the sender's part in it (R25). -/
def takeWithdraw (m : Master) (number : Byte) (s : State) : State × Answer :=
  match s.claims.find number with
  | none => (s, .refuse .noClaim)
  | some (p, e) =>
    match e.state with
    | .pending _ _ => if e.master = m then withdrawClaim p s else (s, .refuse .notHolder)
    | .held _ _ => if e.master = m then (s, .refuse .wrongState) else (s, .refuse .notHolder)
    | .offered lease tag target _ =>
      if e.master = m then cancelOffer p e tag s
      else if target = m then (endOffer p e lease tag .declined s, .ok [0x03, 0x00, 0x00])
      else (s, .refuse .notHolder)

/-- WITHDRAW (R25). -/
def execWithdraw (m : Master) (number : Byte) (s : State) : Result :=
  request (.withdraw m number) m (takeWithdraw m number) s

/-- The checks 3 to 5 and the taking of an OFFER (R42, R43). -/
def takeOffer (m : Master) (number : Byte) (target : Master) (time : Word16) (s : State) : State × Answer :=
  match s.claims.find number with
  | none => (s, .refuse .noClaim)
  | some (p, e) =>
    if e.master ≠ m then (s, .refuse .notHolder)
    else
      match e.state with
      | .pending _ _ | .offered _ _ _ _ => (s, .refuse .wrongState)
      | .held _ tag =>
        let offered := { e with state := .offered e.leasePeriod tag target time }
        ((s.setClaims (s.claims.setEntry p (some offered))).raise target .offered,
          .ok (bytes16 e.leasePeriod ++ bytes16 time))

/-- OFFER (R42, R43). -/
def execOffer (m : Master) (number target : Byte) (time : Word16) (s : State) : Result :=
  request (.offer m number target time) m (takeOffer m number (masterOf target) time) s

/-- A PENDING entry of the master shares a channel with the set (R46). -/
def ClaimTable.waitsOn (t : ClaimTable) (m : Master) (set : ChannelSet) : Bool :=
  allPositions.any (fun p =>
    (t.entries[p]).any (fun e => e.isPending && decide (e.master = m) && decide (e.set &&& set ≠ 0)))

/-- The claim passes to its new holder (R47). -/
def handOver (m : Master) (p : Pos) (e : ClaimEntry) (lease : Word16) (tag : Word32) (s : State) : State :=
  ((s.setClaims
      (s.claims.setEntry p (some { e with master := m, leasePeriod := lease, state := .held lease tag }))).onNotices
    e.master (NoticeState.raiseHandoff .accepted)).append (.claim e.master e.number e.set (.handoffDone m))

/-- The checks 3 and 4 and the taking of an ACCEPT (R46, R47). -/
def takeAccept (m : Master) (number : Byte) (lease : Word16) (s : State) : State × Answer :=
  match s.claims.find number with
  | none => (s, .refuse .noOffer)
  | some (p, e) =>
    match e.state with
    | .pending _ _ | .held _ _ => (s, .refuse .noOffer)
    | .offered _ tag target _ =>
      if target ≠ m then (s, .refuse .noOffer)
      else if s.claims.waitsOn m e.set then (s, .refuse .busy)
      else (handOver m p e lease tag s, .ok (bytes16 lease))

/-- ACCEPT (R46, R47). -/
def execAccept (m : Master) (number : Byte) (lease : Word16) (s : State) : Result :=
  request (.accept m number lease) m (takeAccept m number lease) s

/-- The revoke state of a master set (R37). -/
def State.setRevoke (m : Master) (r : RevokeState) (s : State) : State :=
  s.setClaims { s.claims with revoke := s.claims.revoke.set m r }

/-- The taking of an ACK_REVOKE (R40). -/
def takeAckRevoke (m : Master) (s : State) : State × Answer :=
  ((s.setRevoke m .active).onNotices m NoticeState.clearRevoked, .ok [(s.claims.revoke.get m).code])

/-- ACK_REVOKE (R40). -/
def execAckRevoke (m : Master) (s : State) : Result := request (.ackRevoke m) m (takeAckRevoke m) s

/-- The entry a READ_CLAIM selects (R27). -/
def ClaimTable.select (t : ClaimTable) (selector value : Byte) : Option (Pos × ClaimEntry) :=
  if selector = 0 then t.find value else (t.entries[posOf value]).map (fun e => (posOf value, e))

/-- The answer of a READ_CLAIM (R27, R28, R193). -/
def takeReadClaim (selector value : Byte) (s : State) : State × Answer :=
  match s.claims.select selector value with
  | none => (s, .ok [0x00])
  | some (p, e) => (s, .ok (e.readout p (s.claims.place p)))

/-- READ_CLAIM (R27). -/
def execReadClaim (m : Master) (selector value : Byte) (s : State) : Result :=
  request (.readClaim m selector value) m (takeReadClaim selector value) s

/-! ## Expiries -/

/-- The wait timer of an entry has run out (R16). -/
def ClaimEntry.waitDue (e : ClaimEntry) : Bool :=
  match e.state with
  | .pending (some w) _ => decide (w.remaining = 0)
  | .pending none _ | .held _ _ | .offered _ _ _ _ => false

/-- The lease timer of an entry has run out (R31). -/
def ClaimEntry.leaseDue (e : ClaimEntry) : Bool := decide (e.leaseRemaining = some 0)

/-- The offer timer of an entry has run out (R45). -/
def ClaimEntry.offerDue (e : ClaimEntry) : Bool :=
  match e.state with
  | .offered _ _ _ remaining => decide (remaining = 0)
  | .pending _ _ | .held _ _ => false

/-- An event of the claim table's timers is due at the entry (R182). -/
def ClaimEntry.due (e : ClaimEntry) : Bool := e.waitDue || e.leaseDue || e.offerDue

/-- WAIT_EXPIRY: the wait timer of a PENDING entry expires (R17). An expiry that is not due does not occur (log 1). -/
def execWaitExpiry (p : Pos) (s : State) : Result :=
  if s.inReset then .next s
  else
    match s.entry p with
    | none => .next s
    | some e => if e.waitDue then .next (s.refuseClaim p e .timeout).grantEvaluation else .next s

/-- A claim whose lease has run out is revoked (R32). -/
def revokeClaim (p : Pos) (e : ClaimEntry) (s : State) : State :=
  let ordered := s.orderAll e.set ChannelUnit.revokeOrder
  let removed := ordered.setClaims (ordered.claims.remove p)
  let barred := (removed.setRevoke e.master .barred).raise e.master .revoked
  (barred.append (.claim e.master e.number e.set .leaseExpired)).grantEvaluation

/-- LEASE_EXPIRY: the lease timer of an entry in force expires (R32). An expiry that is not due does not occur (log 1). -/
def execLeaseExpiry (p : Pos) (s : State) : Result :=
  if s.inReset then .next s
  else
    match s.entry p with
    | none => .next s
    | some e => if e.leaseDue then .next (revokeClaim p e s) else .next s

/-- OFFER_LAPSE: the offer timer of an OFFERED entry expires (R45). An expiry that is not due does not occur (log 1). -/
def execOfferLapse (p : Pos) (s : State) : Result :=
  if s.inReset then .next s
  else
    match s.entry p with
    | none => .next s
    | some e =>
      match e.state with
      | .pending _ _ | .held _ _ => .next s
      | .offered lease tag _ _ => if e.offerDue then .next (endOffer p e lease tag .lapsed s) else .next s

/-- The timers of an entry one millisecond later: wait, lease and offer count down (R16, R31, R45). -/
def ClaimEntry.tick (e : ClaimEntry) : ClaimEntry :=
  match e.state with
  | .pending wait expected =>
    { e with state := .pending (wait.map (fun w => { w with remaining := countDown w.remaining })) expected }
  | .held lease tag => { e with state := .held (countDown lease) tag }
  | .offered lease tag target remaining =>
    { e with state := .offered (countDown lease) tag target (countDown remaining) }

end Sys2Proof.Machine
end

