-- ==== Sys2Proof/Machine/Device.lean ====
section
/-!
DEFINITION. The time base, the trigger unit and the resets (Chapter 10).
-/

namespace Sys2Proof.Machine

/-! ## Time base -/

/-- The recognised levels in one byte: bit 0 TRG0 high, bit 1 TRG1 high (R192). -/
def levelsByte (level0 level1 : Level) : Byte := packedBit (level0 = .high) 0 ||| packedBit (level1 = .high) 1

/-- The answer of a READ_TIME (R183). -/
def takeReadTime (s : State) : State × Answer :=
  (s, .ok (bytes32 s.timeTag ++ [s.trg0.selection.code, s.trg1.selection.code, levelsByte s.trg0.level s.trg1.level]))

/-- READ_TIME (R183). -/
def execReadTime (m : Master) (s : State) : Result := request (.readTime m) m takeReadTime s

/-- A timer event of the claim table or of a channel unit is due in this millisecond and not yet taken (R182). -/
def State.anyDue (s : State) : Bool :=
  allPositions.any (fun p => (s.entry p).any ClaimEntry.due) || allChannels.any (fun c => (s.channel c).due)

/-- One millisecond later: the time tag is one higher, and every running timer has one millisecond less to go (R181, R182). -/
def State.millisecond (s : State) : State :=
  { s with
    timeTag := s.timeTag + 1
    claims := { s.claims with entries := mapVector (Option.map ClaimEntry.tick) s.claims.entries }
    channels := mapVector ChannelUnit.tick s.channels }

/-- TIME_TAG_ADVANCE (R181). The time tag stays at 0 while the part is held in full reset (R186). An expiry is taken in the
millisecond in which it falls due (R182), so no millisecond ends before the expiries due in it are taken (log 4). -/
def execTimeTagAdvance (s : State) : Result := if s.inReset || s.anyDue then .next s else .next s.millisecond

/-! ## Trigger unit -/

/-- The transition to the level matches the edge selection (R184). -/
def EdgeSelection.matchesLevel (selection : EdgeSelection) (level : Level) : Bool :=
  match selection with
  | .rising => decide (level = .high)
  | .falling => decide (level = .low)
  | .both => true

/-- A transition is recognised: the level takes the new value, and a matching one is delivered to all twelve channel units as
one trigger edge event (R184). -/
def State.transition (l : Line) (level : Level) (s : State) : State :=
  let recognised := s.setLine l { s.line l with level := level }
  if (s.line l).selection.matchesLevel level then
    recognised.channelEvents allChannels (ChannelUnit.edge s.timeTag l)
  else recognised

/-- TRIGGER_TRANSITION: a change of level is a transition when the input holds its new level for at least 2 microseconds; none
is recognised while the part is held in full reset (R184, R186). -/
def execTriggerTransition (l : Line) (level : Level) (heldNs : Nat) (s : State) : Result :=
  if s.inReset = true ∨ heldNs < Config.transitionNs ∨ level = (s.line l).level then .next s
  else .next (s.transition l level)

/-- The checks and the taking of a SET_TRIGGERS (R185). -/
def takeSetTriggers (m : Master) (edge0 edge1 : EdgeSelection) (s : State) : State × Answer :=
  if s.holdsAll m allSet then
    ({ s with trg0 := { s.trg0 with selection := edge0 }, trg1 := { s.trg1 with selection := edge1 } },
      .ok [s.trg0.selection.code, s.trg1.selection.code, edge0.code, edge1.code])
  else (s, .refuse .notHolder)

/-- SET_TRIGGERS (R185). -/
def execSetTriggers (m : Master) (edge0 edge1 : Byte) (s : State) : Result :=
  request (.setTriggers m edge0 edge1) m (takeSetTriggers m (edgeSelectionOf edge0) (edgeSelectionOf edge1)) s

/-! ## Soft reset -/

/-- The claim table's part of a soft reset (R30). -/
def ClaimTable.softReset (t : ClaimTable) : ClaimTable :=
  { entries := Vector.replicate 8 none, order := [], nextNumber := t.nextNumber, revoke := .all .active }

/-- The log's part of a soft reset (R160). -/
def CompletionLog.softReset (tag : Word32) (m : Master) (l : CompletionLog) : CompletionLog :=
  { records := [{ seq := 0, tag := tag, body := .softReset m }], nextSeq := 1
    readers := l.readers.mapWith (fun _ r => { r with cursor := 0, gap := false }) }

/-- A port's part of a soft reset; the requester's own buffer then takes its answer OK (R180). -/
def Port.softReset (p : Port) : Port := { p with response := noResponseFrame, capture := none }

/-- The soft reset reaches every block in one event (R187). -/
def State.softReset (m : Master) (s : State) : State :=
  { s with
    claims := s.claims.softReset
    channels := mapVector ChannelUnit.softReset s.channels
    log := s.log.softReset s.timeTag m
    notices := s.notices.mapWith (fun _ n => n.softReset)
    ports := s.ports.mapWith (fun _ p => p.softReset) }

/-- The check and the taking of a RESET_DEVICE (R187). -/
def takeResetDevice (m : Master) (s : State) : State × Answer :=
  if s.holdsAll m allSet then (s.softReset m, .ok []) else (s, .refuse .notHolder)

/-- RESET_DEVICE (R187). -/
def execResetDevice (m : Master) (s : State) : Result := request (.resetDevice m) m (takeResetDevice m) s

/-! ## Full reset -/

/-- The part at its full-reset values, with the queue and the recognised levels given (R186). -/
def fullResetState (pending : List Instr) (inReset : Bool) (level0 level1 : Level) : State :=
  { State.reset with
    pending := pending, inReset := inReset
    trg0 := { selection := .rising, level := level0 }, trg1 := { selection := .rising, level := level1 } }

/-- FULL_RESET, by power-on or by the RESET input: the part is held in full reset, and nothing shows which gave it (R186). -/
def execFullReset (_source : ResetSource) (s : State) : Result :=
  .next (fullResetState s.pending true s.trg0.level s.trg1.level)

/-- FULL_RESET_END: every block holds its full-reset values, and each recognised level is that of its input (R186). The end of a
full reset that was not given does not occur (log 1). -/
def execFullResetEnd (level0 level1 : Level) (s : State) : Result :=
  if s.inReset then .next (fullResetState s.pending false level0 level1) else .next s

end Sys2Proof.Machine
end

