-- ==== Sys2Proof/Machine/ListRequests.lean ====
section
/-!
DEFINITION. The requests of the step lists (Chapters 5 and 6).
-/

namespace Sys2Proof.Machine

/-- The checks and the taking of a LOAD_STEP (R107, R108). -/
def takeLoadStep (m : Master) (c : Ch) (slot : Fin 16) (st : StepRecord) (s : State) : State × Answer :=
  ownChannel m c s <|
    if (s.channel c).list.active then (s, .refuse .wrongState)
    else if (s.channel c).config.range.holds st.target = false then (s, .refuse .limit)
    else
      ((s.onChannel c (ChannelUnit.loadStep slot st)).renewLeases m (onlyChannel c),
        .ok [natByte slot.val, (s.channel c).list.code])

/-- LOAD_STEP (R107, R108). -/
def execLoadStep (m : Master) (channel slot : Byte) (target rate dwell : Word16) (flags : Byte) (s : State) : Result :=
  request (.loadStep m channel slot target rate dwell flags) m
    (takeLoadStep m (chOf channel) (slotOf slot) (stepOf target rate dwell flags)) s

/-- The checks and the taking of a SET_LIST (R109, R110). -/
def takeSetList (m : Master) (c : Ch) (d : Descriptor) (s : State) : State × Answer :=
  ownChannel m c s <|
    if (s.channel c).list.active then (s, .refuse .wrongState)
    else if (s.channel c).slotsLoaded d.count.toNat = false then (s, .refuse .wrongState)
    else ((s.onChannel c (ChannelUnit.setList d)).renewLeases m (onlyChannel c), .ok [d.count])

/-- SET_LIST (R109, R110). -/
def execSetList (m : Master) (channel count mode : Byte) (period : Word16) (onFault recordPasses : Byte) (s : State) :
    Result :=
  request (.setList m channel count mode period onFault recordPasses) m
    (takeSetList m (chOf channel) (descriptorOf count mode period onFault recordPasses)) s

/-- A request on a channel set, taken only from the holder of every channel of it (R4). -/
def ownSet (m : Master) (set : ChannelSet) (s : State) (take : State × Answer) : State × Answer :=
  if s.holdsAll m set then take else (s, .refuse .notHolder)

/-- Every channel of the set is as `ok` says. -/
def State.allChannelsIn (s : State) (set : ChannelSet) (ok : ChannelUnit → Bool) : Bool :=
  (channelsOf set).all (fun c => ok (s.channel c))

/-- The channels of the set that are as `ok` says. -/
def State.channelsWhere (s : State) (set : ChannelSet) (ok : ChannelUnit → Bool) : ChannelSet :=
  (channelsOf set).foldl (fun found c => if ok (s.channel c) then found ||| onlyChannel c else found) 0

/-- A request that reaches the lists of a set, in ascending channel order, and renews the leases concerned (R125, R137). -/
def State.listEvents (m : Master) (set : ChannelSet) (f : ChannelUnit → Progress) (s : State) : State :=
  (s.channelEvents (channelsOf set) f).renewLeases m set

/-- A channel on which a START may be taken (R124). -/
def ChannelUnit.startable (u : ChannelUnit) : Bool := decide (u.list = .loaded) && decide (u.drive = .steady)

/-- The list state a START answers: RUNNING, or ARMED (R125, R126). -/
def startedCode : Option Line → Byte
  | none => 0x03
  | some _ => 0x02

/-- The checks and the taking of a START (R124 to R126). -/
def takeStart (m : Master) (set : ChannelSet) (source : Option Line) (s : State) : State × Answer :=
  ownSet m set s <|
    if s.allChannelsIn set (fun u => !u.faultLatch) = false then (s, .refuse .faulted)
    else if s.allChannelsIn set ChannelUnit.startable = false then (s, .refuse .wrongState)
    else (s.listEvents m set (ChannelUnit.start s.timeTag source), .ok (setBytes set ++ [startedCode source]))

/-- START (R124 to R126). -/
def execStart (m : Master) (set : Word16) (source : Byte) (s : State) : Result :=
  request (.start m set source) m (takeStart m (channelSetOf set) (sourceLine source)) s

/-- The list is RUNNING. -/
def ListState.isRunning : ListState → Bool
  | .running _ => true
  | .empty | .loaded | .armed _ | .paused _ => false

/-- The list is PAUSED. -/
def ListState.isPaused : ListState → Bool
  | .paused _ => true
  | .empty | .loaded | .armed _ | .running _ => false

/-- STOP on one channel, by its mode byte: 0x00 NOW, 0x01 AT_PASS_END (R138, R139). -/
def ChannelUnit.stop (mode : Byte) (u : ChannelUnit) : Progress := if mode = 0 then u.stopNow else u.stopAtPassEnd

/-- The results of a STOP that is taken, from the lists as it left them (R137, R192). -/
def stopResults (set : ChannelSet) (s : State) : List Byte :=
  setBytes set ++ setBytes (s.channelsWhere set (fun u => u.list.isRunning)) ++
    setBytes (s.channelsWhere set (fun u => u.list.isPaused))

/-- The checks and the taking of a STOP (R137). -/
def takeStop (m : Master) (set : ChannelSet) (mode : Byte) (s : State) : State × Answer :=
  ownSet m set s <|
    if s.allChannelsIn set (fun u => u.list.active) = false then (s, .refuse .wrongState)
    else
      (s.listEvents m set (ChannelUnit.stop mode),
        .ok (stopResults set (s.listEvents m set (ChannelUnit.stop mode))))

/-- STOP (R137 to R139). -/
def execStop (m : Master) (set : Word16) (mode : Byte) (s : State) : Result :=
  request (.stop m set mode) m (takeStop m (channelSetOf set) mode) s

/-- The checks and the taking of a PAUSE (R141). -/
def takePause (m : Master) (set : ChannelSet) (s : State) : State × Answer :=
  ownSet m set s <|
    if s.allChannelsIn set (fun u => u.list.isRunning) = false then (s, .refuse .wrongState)
    else (s.listEvents m set ChannelUnit.pause, .ok (setBytes set))

/-- PAUSE (R141). -/
def execPause (m : Master) (set : Word16) (s : State) : Result := request (.pause m set) m (takePause m (channelSetOf set)) s

/-- RESUME on one channel, by its mode byte: 0x00 CONTINUE, 0x01 REPEAT (R143, R144). -/
def ChannelUnit.resume (tag : Word32) (mode : Byte) (u : ChannelUnit) : Progress :=
  if mode = 0 then u.resumeContinue tag else u.resumeRepeat tag

/-- The checks and the taking of a RESUME (R143). -/
def takeResume (m : Master) (set : ChannelSet) (mode : Byte) (s : State) : State × Answer :=
  ownSet m set s <|
    if s.allChannelsIn set (fun u => u.list.isPaused) = false then (s, .refuse .wrongState)
    else (s.listEvents m set (ChannelUnit.resume s.timeTag mode), .ok (setBytes set))

/-- RESUME (R143, R144). -/
def execResume (m : Master) (set : Word16) (mode : Byte) (s : State) : Result :=
  request (.resume m set mode) m (takeResume m (channelSetOf set) mode) s

/-- The taking of a PROCEED (R146). -/
def takeProceed (m : Master) (set : ChannelSet) (s : State) : State × Answer :=
  ownSet m set s
    (s.listEvents m set (ChannelUnit.proceed s.timeTag), .ok (setBytes (s.channelsWhere set ChannelUnit.proceeds)))

/-- PROCEED (R146). -/
def execProceed (m : Master) (set : Word16) (s : State) : Result :=
  request (.proceed m set) m (takeProceed m (channelSetOf set)) s

/-- The slot content and the step record a READ_STEP answers; 0x00 throughout for a blank slot (R192). -/
def slotBytes : Option StepRecord → List Byte
  | none => [0x00] ++ List.replicate 7 0x00
  | some st => [0x01] ++ st.bytes

/-- The answer of a READ_STEP (R112). -/
def takeReadStep (c : Ch) (slot : Fin 16) (s : State) : State × Answer :=
  (s, .ok ([natByte slot.val] ++ slotBytes (s.channel c).slots[slot] ++ [(s.channel c).list.code] ++
    (s.channel c).descriptor.bytes))

/-- READ_STEP (R112). -/
def execReadStep (m : Master) (channel slot : Byte) (s : State) : Result :=
  request (.readStep m channel slot) m (takeReadStep (chOf channel) (slotOf slot)) s

end Sys2Proof.Machine
end

