-- ==== Sys2Proof/Machine/LogRequests.lean ====
section
/-!
DEFINITION. The requests of the completion log (R155 to R158).
-/

namespace Sys2Proof.Machine

/-- The record a reader's cursor designates, if its unread count is above 0 (R155). -/
def CompletionLog.designated (l : CompletionLog) (r : LogReader) : Option LogRecord :=
  if l.unread r = 0 then none else l.records.find? (fun k => k.seq = r.cursor)

/-- A reader after a READ_LOG: the gap flag is cleared, and NEXT (mode 0x00) passes the record returned (R155). -/
def LogReader.read (mode : Byte) (returned : Bool) (r : LogReader) : LogReader :=
  { r with gap := false, cursor := if mode = 0 ∧ returned = true then r.cursor + 1 else r.cursor }

/-- The log with a master's reader replaced. -/
def State.setReader (m : Master) (r : LogReader) (s : State) : State :=
  { s with log := { s.log with readers := s.log.readers.set m r } }

/-- The log readout (R194). -/
def logReadout (record : Option LogRecord) (gap : Bool) (unread : Nat) : List Byte :=
  [packedBit record.isSome 0 ||| packedBit gap 1, natByte unread] ++
    (match record with
      | none => []
      | some k => k.bytes)

/-- The taking of a READ_LOG (R155). -/
def takeReadLog (m : Master) (mode : Byte) (s : State) : State × Answer :=
  let before := s.log.readers.get m
  let record := s.log.designated before
  let after := before.read mode record.isSome
  (s.setReader m after, .ok (logReadout record before.gap (s.log.unread after)))

/-- READ_LOG (R155). -/
def execReadLog (m : Master) (mode : Byte) (s : State) : Result := request (.readLog m mode) m (takeReadLog m mode) s

/-- The taking of a SET_LOG_THRESHOLD (R158). -/
def takeSetLogThreshold (m : Master) (threshold : Byte) (s : State) : State × Answer :=
  (s.setReader m { s.log.readers.get m with threshold := threshold },
    .ok [natByte (s.log.unread (s.log.readers.get m))])

/-- SET_LOG_THRESHOLD (R158). -/
def execSetLogThreshold (m : Master) (threshold : Byte) (s : State) : Result :=
  request (.setLogThreshold m threshold) m (takeSetLogThreshold m threshold) s

end Sys2Proof.Machine
end

