-- ==== Sys2Proof/Machine/Notices.lean ====
section
/-!
DEFINITION. The requests of the notice unit (R165 to R168).
-/

namespace Sys2Proof.Machine

/-- The HANDOFF reason as READ_NOTICES reports it: 0x00 when absent (R189). -/
def handoffByte : Option HandoffReason → Byte
  | none => 0x00
  | some r => r.code

/-- The answer of a READ_NOTICES (R165). -/
def takeReadNotices (m : Master) (s : State) : State × Answer :=
  (s, .ok (noticeBytes (s.notice m).pending ++ noticeBytes (s.notice m).mask ++ [handoffByte (s.notice m).handoff] ++
    noticeBytes (s.notice m).potent))

/-- READ_NOTICES (R165). -/
def execReadNotices (m : Master) (s : State) : Result := request (.readNotices m) m (takeReadNotices m) s

/-- The taking of an ACK_NOTICES (R166). -/
def takeAckNotices (m : Master) (named : NoticeSet) (s : State) : State × Answer :=
  (s.onNotices m (NoticeState.acknowledge named), .ok (noticeBytes ((s.notice m).acknowledge named).pending))

/-- ACK_NOTICES (R166). -/
def execAckNotices (m : Master) (set : Word16) (s : State) : Result :=
  request (.ackNotices m set) m (takeAckNotices m (noticeSetOf set)) s

/-- The taking of a SET_NOTICE_MASK (R168). -/
def takeSetNoticeMask (m : Master) (mask : NoticeSet) (s : State) : State × Answer :=
  (s.onNotices m (NoticeState.setMask mask),
    .ok (noticeBytes ((s.notice m).setMask mask).mask ++ noticeBytes (s.notice m).pending))

/-- SET_NOTICE_MASK (R168). -/
def execSetNoticeMask (m : Master) (set : Word16) (s : State) : Result :=
  request (.setNoticeMask m set) m (takeSetNoticeMask m (noticeSetOf set)) s

end Sys2Proof.Machine
end

