-- ==== Sys2Proof/Machine/Ports.lean ====
section
/-!
DEFINITION. The port lines and the frame ends that are no known request (R170 to R176), NOP, and the requests of the port's
error capture (R177, R178).
-/

namespace Sys2Proof.Machine

/-- Bit `n` of the outgoing frame, most significant bit of byte 0 first; 0 from byte 24 on (R170). -/
def outgoingBit (copy : List Byte) (n : Nat) : Bool := (byteAt copy (n / 8)).getLsbD (7 - n % 8)

/-- A frame begins: the response is copied, and its first bit presented (R170). -/
def Port.beginFrame (p : Port) : Port :=
  { p with
    inProgress := true, bitCount := 0, bytes := [], partialByte := 0, outgoing := p.response
    dataOut := outgoingBit p.response 0 }

/-- FRAME_BEGIN: select falls (R170); ignored while the part is held in full reset (R186). -/
def execFrameBegin (m : Master) (s : State) : Result :=
  if s.inReset then .next s else .next (s.setPort m (s.port m).beginFrame)

/-- The incoming bit is sampled at a rising clock edge (R170). -/
def Port.sample (bit : Bool) (p : Port) : Port :=
  let shifted := (p.partialByte <<< 1) ||| flagByte bit
  if p.bitCount % 8 = 7 then { p with bitCount := p.bitCount + 1, bytes := p.bytes ++ [shifted], partialByte := 0 }
  else { p with bitCount := p.bitCount + 1, partialByte := shifted }

/-- The next outgoing bit is presented at a falling clock edge (R170). -/
def Port.present (p : Port) : Port := { p with dataOut := outgoingBit p.outgoing p.bitCount }

/-- What a clock edge does to a port (R170). -/
def Port.clockEdge (edge : ClockEdge) (bit : Bool) (p : Port) : Port :=
  match edge with
  | .rising => p.sample bit
  | .falling => p.present

/-- PORT_CLOCK_EDGE: an edge while no frame is in progress moves no bit (R170, R179), and so does one while the part is held in
full reset (R186). -/
def execPortClockEdge (m : Master) (edge : ClockEdge) (bit : Bool) (s : State) : Result :=
  if s.inReset = false ∧ (s.port m).inProgress = true then .next (s.setPort m ((s.port m).clockEdge edge bit)) else .next s

/-- The error capture is filled, or marked LOST (R176). -/
def Port.captureError (kind : FrameErrorKind) (tag : Word32) (p : Port) : Port :=
  match p.capture with
  | none => { p with capture := some { kind := kind, firstByte := p.bytes.head?, tag := tag, lost := false } }
  | some held => { p with capture := some { held with lost := true } }

/-- The FRAME_ERROR answer: byte 0 as received, or 0x00 if no complete byte arrived, and the error kind (R173, R175). -/
def Port.answerError (kind : FrameErrorKind) (p : Port) : Port :=
  { p with response := sealFrame [byteAt p.bytes 0, Status.frameError.code, kind.code] }

/-- A frame error at the port of a master (R175). -/
def takeFrameError (m : Master) (s : State) : State :=
  match (s.port m).frameError with
  | none => s
  | some kind => (s.setPort m (((s.port m).captureError kind s.timeTag).answerError kind)).raise m .port

/-- FRAME_ERROR: select rises, and the frame has a LENGTH or CRC error (R171, R175). -/
def execFrameError (m : Master) (s : State) : Result := atFrameEnd (.frameError m) m (takeFrameError m) s

/-- UNKNOWN_REQUEST: select rises on a good frame whose code is unknown (R171, R173). -/
def execUnknownRequest (m : Master) (code : Byte) (s : State) : Result :=
  atFrameEnd (.unknownRequest m code) m (State.respond m code (.refuse .unknownRequest)) s

/-- The taking of a NOP (R173). -/
def takeNop (s : State) : State × Answer := (s, .ok [])

/-- NOP (R173). -/
def execNop (m : Master) (s : State) : Result := request (.nop m) m takeNop s

/-- The taking of a READ_PORT_ERROR (R177). -/
def takeReadPortError (m : Master) (s : State) : State × Answer := (s, .ok (captureBytes (s.port m).capture))

/-- READ_PORT_ERROR (R177). -/
def execReadPortError (m : Master) (s : State) : Result := request (.readPortError m) m (takeReadPortError m) s

/-- The taking of a CLEAR_PORT_ERROR (R178). -/
def takeClearPortError (m : Master) (s : State) : State × Answer :=
  (s.setPort m { s.port m with capture := none }, .ok (captureBytes (s.port m).capture))

/-- CLEAR_PORT_ERROR (R178). -/
def execClearPortError (m : Master) (s : State) : Result := request (.clearPortError m) m (takeClearPortError m) s

end Sys2Proof.Machine
end

