-- ==== Sys2Proof/Machine/Dispatch.lean ====
section
/-!
DEFINITION. The one dispatch from a command to its meaning.
-/

namespace Sys2Proof.Machine

def exec (i : Instr) (s : State) : Host.Outcome State Fault Refusal :=
  match i with
  | .frameBegin m => Sys2Proof.Machine.execFrameBegin m s
  | .frameError m => Sys2Proof.Machine.execFrameError m s
  | .unknownRequest m code => Sys2Proof.Machine.execUnknownRequest m code s
  | .nop m => Sys2Proof.Machine.execNop m s
  | .claim m set lease wait presence digest => Sys2Proof.Machine.execClaim m set lease wait presence digest s
  | .renew m number => Sys2Proof.Machine.execRenew m number s
  | .release m number mode => Sys2Proof.Machine.execRelease m number mode s
  | .withdraw m number => Sys2Proof.Machine.execWithdraw m number s
  | .offer m number target time => Sys2Proof.Machine.execOffer m number target time s
  | .accept m number lease => Sys2Proof.Machine.execAccept m number lease s
  | .ackRevoke m => Sys2Proof.Machine.execAckRevoke m s
  | .readClaim m selector value => Sys2Proof.Machine.execReadClaim m selector value s
  | .setRange m channel low high fallback maxRate => Sys2Proof.Machine.execSetRange m channel low high fallback maxRate s
  | .setPolicy m channel settle retry packed counted fault revoke => Sys2Proof.Machine.execSetPolicy m channel settle retry packed counted fault revoke s
  | .write m channel code rate => Sys2Proof.Machine.execWrite m channel code rate s
  | .clearFault m channel => Sys2Proof.Machine.execClearFault m channel s
  | .readChannel m channel => Sys2Proof.Machine.execReadChannel m channel s
  | .readConfig m channel => Sys2Proof.Machine.execReadConfig m channel s
  | .readDigest m set => Sys2Proof.Machine.execReadDigest m set s
  | .loadStep m channel slot target rate dwell flags => Sys2Proof.Machine.execLoadStep m channel slot target rate dwell flags s
  | .setList m channel count mode period onFault recordPasses => Sys2Proof.Machine.execSetList m channel count mode period onFault recordPasses s
  | .start m set source => Sys2Proof.Machine.execStart m set source s
  | .stop m set mode => Sys2Proof.Machine.execStop m set mode s
  | .pause m set => Sys2Proof.Machine.execPause m set s
  | .resume m set mode => Sys2Proof.Machine.execResume m set mode s
  | .proceed m set => Sys2Proof.Machine.execProceed m set s
  | .readStep m channel slot => Sys2Proof.Machine.execReadStep m channel slot s
  | .readLog m mode => Sys2Proof.Machine.execReadLog m mode s
  | .setLogThreshold m threshold => Sys2Proof.Machine.execSetLogThreshold m threshold s
  | .readNotices m => Sys2Proof.Machine.execReadNotices m s
  | .ackNotices m set => Sys2Proof.Machine.execAckNotices m set s
  | .setNoticeMask m set => Sys2Proof.Machine.execSetNoticeMask m set s
  | .readPortError m => Sys2Proof.Machine.execReadPortError m s
  | .clearPortError m => Sys2Proof.Machine.execClearPortError m s
  | .readTime m => Sys2Proof.Machine.execReadTime m s
  | .setTriggers m edge0 edge1 => Sys2Proof.Machine.execSetTriggers m edge0 edge1 s
  | .resetDevice m => Sys2Proof.Machine.execResetDevice m s
  | .waitExpiry p => Sys2Proof.Machine.execWaitExpiry p s
  | .leaseExpiry p => Sys2Proof.Machine.execLeaseExpiry p s
  | .offerLapse p => Sys2Proof.Machine.execOfferLapse p s
  | .moveAdvance c => Sys2Proof.Machine.execMoveAdvance c s
  | .settleExpiry c verdict => Sys2Proof.Machine.execSettleExpiry c verdict s
  | .dwellExpiry c => Sys2Proof.Machine.execDwellExpiry c s
  | .gapExpiry c => Sys2Proof.Machine.execGapExpiry c s
  | .triggerTransition l level heldNs => Sys2Proof.Machine.execTriggerTransition l level heldNs s
  | .fullReset source => Sys2Proof.Machine.execFullReset source s
  | .fullResetEnd level0 level1 => Sys2Proof.Machine.execFullResetEnd level0 level1 s
  | .timeTagAdvance => Sys2Proof.Machine.execTimeTagAdvance s
  | .portClockEdge m edge bit => Sys2Proof.Machine.execPortClockEdge m edge bit s

end Sys2Proof.Machine
end

