-- ==== Sys2Proof/Machine/Step.lean ====
section
/-!
DEFINITION. One step of the part: the command at the front of the queue is taken; on an empty queue the part idles (log 2).
-/

namespace Sys2Proof.Machine

/-- Take the front command and run it on the state with the queue's rest. -/
def step (s : State) : Host.Outcome State Fault Refusal :=
  match s.pending with
  | [] => .next s
  | c :: rest => exec c { s with pending := rest }

/-- The command that a table word spells, put at the front of the queue; the table spells none (log 9). -/
def State.withFetchWord (s : State) (nbits w : Nat) : State :=
  match decodeTableWord nbits w with
  | none => s
  | some c => { s with pending := c :: s.pending }

end Sys2Proof.Machine
end

