-- ==== Sys2Proof/Safety.lean ====
section
/-!
DEFINITION. What stays true at every moment: the laws the spec states of each block, as predicates on a state; and the head of
the check order, as a predicate on a request and a state.
-/

namespace Sys2Proof.Machine

/-! ## Requests -/

/-- The request `i` stands at the frame end of the port of `m`, its parameters are well formed, and `m` is not refused as
BARRED: the first three checks of R174 are passed. -/
abbrev PassesHead (i : Instr) (m : Master) (s : State) : Prop :=
  s.frameEnd m = some i ∧ i.parametersOk = true ∧ (i.barrable = true → s.barred m = false)

/-- The channels that a request changes or acts on (R4): none for a request that names no channel; all twelve for the two requests
reserved to a master that holds every channel (R185, R187). -/
def actsOn : Instr → Option ChannelSet
  | .setRange _ channel _ _ _ _ => some (onlyChannel (chOf channel))
  | .setPolicy _ channel _ _ _ _ _ _ => some (onlyChannel (chOf channel))
  | .write _ channel _ _ => some (onlyChannel (chOf channel))
  | .clearFault _ channel => some (onlyChannel (chOf channel))
  | .loadStep _ channel _ _ _ _ _ => some (onlyChannel (chOf channel))
  | .setList _ channel _ _ _ _ _ => some (onlyChannel (chOf channel))
  | .start _ set _ => some (channelSetOf set)
  | .stop _ set _ => some (channelSetOf set)
  | .pause _ set => some (channelSetOf set)
  | .resume _ set _ => some (channelSetOf set)
  | .proceed _ set => some (channelSetOf set)
  | .setTriggers _ _ _ => some allSet
  | .resetDevice _ => some allSet
  | _ => none

/-- Commands taken one after another, as far as the first that stops. -/
def runCommands : List Instr → State → Result
  | [], s => .next s
  | c :: rest, s =>
    match exec c s with
    | .next t => runCommands rest t
    | .fault r => .fault r
    | .refused r => .refused r

/-- One clock period of a port that carries an incoming bit: the rising edge, then the falling edge (R170). -/
def clockPeriod (m : Master) (bit : Bool) : List Instr := [.portClockEdge m .rising bit, .portClockEdge m .falling bit]

/-- The clock periods that carry the bytes of a frame, most significant bit first (R170). -/
def clockFrame (m : Master) (bytes : List Byte) : List Instr := (bytes.flatMap bitsOf).flatMap (clockPeriod m)

/-! ## Notices -/

/-- The notice is in the set. -/
abbrev Notice.isIn (k : Notice) (set : NoticeSet) : Prop := set &&& k.bit ≠ 0

/-- A master's line is asserted exactly when its pending set contains REVOKED or a notice not in its mask (R164). -/
def LineLaw (s : State) : Prop :=
  ∀ m, (s.notice m).line = true ↔ ∃ k : Notice, k.isIn (s.notice m).pending ∧ (k = .revoked ∨ ¬ k.isIn (s.notice m).mask)

/-- The REVOKED position of every stored mask is clear (R190). -/
def MaskLaw (s : State) : Prop := ∀ m, ¬ Notice.revoked.isIn (s.notice m).mask

/-- A master is BARRED exactly when its REVOKED notice is pending (R37, R163). -/
def RevokeLaw (s : State) : Prop := ∀ m, s.barred m = true ↔ Notice.revoked.isIn (s.notice m).pending

/-! ## Completion log -/

/-- At most 64 records, with consecutive sequence numbers up to the one before the next (R148); every cursor designates a record
or the place after the newest (R153); every threshold is at most 64. -/
def LogLaw (s : State) : Prop :=
  s.log.records.length ≤ Config.logCapacity ∧
  (∀ n (h : n < s.log.records.length),
    s.log.records[n].seq = s.log.nextSeq - BitVec.ofNat 16 (s.log.records.length - n)) ∧
  ∀ m, s.log.unread (s.log.readers.get m) ≤ s.log.records.length ∧ (s.log.readers.get m).threshold.toNat ≤ 64

/-! ## Claim table -/

/-- Claim numbers are 1 to 255, and no two entries carry the same one (R1, R6). -/
def NumberLaw (s : State) : Prop :=
  s.claims.nextNumber ≠ 0 ∧ (∀ p e, s.entry p = some e → e.number ≠ 0) ∧
  ∀ p q e f, s.entry p = some e → s.entry q = some f → e.number = f.number → p = q

/-- Every channel is in the set of at most one entry in force (R3). -/
def HolderLaw (s : State) : Prop :=
  ∀ p q e f, s.entry p = some e → s.entry q = some f → e.inForce = true → f.inForce = true → p ≠ q → e.set &&& f.set = 0

/-- The pending order lists the PENDING entries, each once, and each master is the requester of at most one (R1, R5). -/
def OrderLaw (s : State) : Prop :=
  s.claims.order.Nodup ∧ (∀ p, p ∈ s.claims.order ↔ ∃ e, s.entry p = some e ∧ e.isPending = true) ∧
  ∀ p q e f, s.entry p = some e → s.entry q = some f → e.isPending = true → f.isPending = true → e.master = f.master → p = q

/-- The fields of an entry lie in the ranges of R2, no lease remaining is above its lease period (R31), and no claim is offered
to its own holder (R42). -/
def ClaimEntry.lawful (e : ClaimEntry) : Prop :=
  e.set ≠ 0 ∧ 10 ≤ e.leasePeriod.toNat ∧
  match e.state with
  | .pending none _ => True
  | .pending (some w) _ => w.limit ≠ 0 ∧ w.remaining ≤ w.limit
  | .held lease _ => lease ≤ e.leasePeriod
  | .offered lease _ target _ => lease ≤ e.leasePeriod ∧ target ≠ e.master

/-- Every entry of the table is lawful. -/
def EntryLaw (s : State) : Prop := ∀ p e, s.entry p = some e → e.lawful

/-- A master's PENDING entry shares no channel with an entry it holds (R8, R46). -/
def WaitingLaw (s : State) : Prop :=
  ∀ p q e f, s.entry p = some e → s.entry q = some f → e.isPending = true → f.inForce = true → e.master = f.master →
    e.set &&& f.set = 0

/-- The laws of the claim table. -/
def ClaimTableLaw (s : State) : Prop := NumberLaw s ∧ HolderLaw s ∧ OrderLaw s ∧ EntryLaw s ∧ WaitingLaw s

/-- No PENDING entry is grantable: what grant evaluation leaves (R12), and a later event finds complete (R11). -/
def NoneGrantable (s : State) : Prop := ∀ p e, p ∈ s.claims.order → s.entry p = some e → s.grantable p e = false

/-! ## Channel units -/

/-- A law of one channel unit, at all twelve. -/
def AllChannels (law : ChannelUnit → Prop) (s : State) : Prop := ∀ c, law (s.channel c)

/-- Settle time and retry limit lie in their ranges (R57), and the digest is the CRC of the record as it stands (R66). -/
def ConfigLaw (u : ChannelUnit) : Prop :=
  u.config.policy.settleTime ≠ 0 ∧ u.config.policy.retryLimit.toNat ≤ 2 ∧ u.digest = crc16 u.config.bytes

/-- The code lies in the range. -/
abbrev RangePart.Within (r : RangePart) (code : Word16) : Prop := r.low ≤ code ∧ code ≤ r.high

/-- Output code, fallback code, stored step targets and move target lie in the range; a move in progress has a rate of at least 1
and has not reached its target (R56, R72, R103). -/
def RangeLaw (u : ChannelUnit) : Prop :=
  u.config.range.Within u.code ∧ u.config.range.Within u.config.range.fallback ∧
  (∀ (n : Fin 16) st, u.slots[n] = some st → u.config.range.Within st.target) ∧
  match u.drive with
  | .steady | .checking _ => True
  | .moving mv => u.config.range.Within mv.target ∧ mv.rate ≠ 0 ∧ mv.target ≠ u.code

/-- A check in flight is at an attempt from 1 to the retry limit plus one (R85), its settle remaining is at most the settle time,
and it has a previous verdict exactly from attempt 2 (R72). -/
def CheckLaw (u : ChannelUnit) : Prop :=
  match u.drive with
  | .steady | .moving _ => True
  | .checking ck =>
    1 ≤ ck.attempt.toNat ∧ ck.attempt.toNat ≤ u.config.policy.retryLimit.toNat + 1 ∧
      ck.settleRemaining ≤ u.config.policy.settleTime ∧ (ck.previous.isSome = true ↔ ck.attempt ≠ 1)

/-- While a list is not EMPTY, its step count is 1 to 16, every slot below it holds a step, and the current step index is below
it (R103). -/
def ListLaw (u : ChannelUnit) : Prop :=
  u.list ≠ .empty →
    1 ≤ u.descriptor.count.toNat ∧ u.descriptor.count.toNat ≤ 16 ∧
    (∀ n : Fin 16, n.val < u.descriptor.count.toNat → u.slots[n].isSome = true) ∧
    ∀ r, u.list.runtime? = some r → r.index.val < u.descriptor.count.toNat

/-- A move of origin STEP is in progress. -/
def Drive.isStepMove : Drive → Prop
  | .moving mv => mv.origin = .step
  | .steady | .checking _ => False

/-- A check of origin STEP is in flight. -/
def Drive.isStepCheck : Drive → Prop
  | .checking ck => ck.origin = .step
  | .steady | .moving _ => False

/-- The drive stands as the run phase says, on a RUNNING and on a PAUSED list (R106, R126, R132, R141); no step moves or checks
without a list that runs it. -/
def PhaseLaw (u : ChannelUnit) : Prop :=
  match u.list with
  | .empty | .loaded => ¬ u.drive.isStepMove ∧ ¬ u.drive.isStepCheck
  | .armed _ => u.drive = .steady
  | .running r =>
    match r.phase with
    | .move => u.drive.isStepMove
    | .check => u.drive.isStepCheck
    | .hold => u.drive = .steady
    | .gap _ => u.drive = .steady ∧ r.dwellTimer = none
  | .paused r =>
    match r.phase with
    | .check => u.drive.isStepCheck
    | .move | .hold => u.drive = .steady
    | .gap _ => u.drive = .steady ∧ r.dwellTimer = none

/-- No step that meets its three end conditions is left standing: it ends in the event that makes the last of them true (R119). -/
abbrev EndedLaw (u : ChannelUnit) : Prop := u.endingStep = none

/-- A list and its course: R103, R106 and R119 together. -/
def CourseLaw (u : ChannelUnit) : Prop := ListLaw u ∧ PhaseLaw u ∧ EndedLaw u

/-- A free channel has no list under way, is never CHECKING, and if MOVING moves to its fallback code (R97, R104). -/
def FreeLaw (s : State) : Prop :=
  ∀ c, s.holder c = none →
    (s.channel c).list.active = false ∧
    match (s.channel c).drive with
    | .steady => True
    | .moving mv =>
      mv.origin = .fallback ∧ mv.target = (s.channel c).config.range.fallback ∧ mv.checkRequired = false
    | .checking _ => False

/-! ## Ports and reset -/

/-- A channel unit at its full-reset values (R56, R57, R70, R99, R102, R122). -/
def ChannelAtReset (u : ChannelUnit) : Prop :=
  u.config.range = { low := 0, high := 65535, fallback := 0, maxRate := 0 } ∧
  u.config.policy =
    { settleTime := 10, retryLimit := 0, retry1 := .same, retry2 := .same, counted := 7, preferred := .a
      checkWrites := false, faultAction := .hold, revokeAction := .hold } ∧
  u.digest = crc16 u.config.bytes ∧ u.code = 0 ∧ u.drive = .steady ∧ u.activeStage = .a ∧ u.faultLatch = false ∧
  u.lastCheck = none ∧ (∀ n : Fin 16, u.slots[n] = none) ∧
  u.descriptor = { count := 0, mode := .single, period := 0, onFault := .stop, recordPasses := false } ∧
  u.list = .empty ∧ u.mark0 = none ∧ u.mark1 = none

/-- The claim table, the log, the notices and the ports at their full-reset values (R29, R159, R169, R179). -/
def BlocksAtReset (t : State) : Prop :=
  (∀ p, t.entry p = none) ∧ t.claims.order = [] ∧ t.claims.nextNumber = 1 ∧ (∀ m, t.barred m = false) ∧
  t.log.records = [] ∧ t.log.nextSeq = 0 ∧ (∀ m, t.log.readers.get m = { cursor := 0, threshold := 0, gap := false }) ∧
  (∀ m, t.notice m = { pending := 0, mask := 0x1FB, handoff := none, line := false }) ∧
  ∀ m, (t.port m).inProgress = false ∧ (t.port m).bitCount = 0 ∧ (t.port m).capture = none ∧
    (t.port m).response = sealFrame [0x00, 0x0F]

/-- The part at its full-reset values (R186), the recognised levels and the hold apart. -/
def AtFullReset (t : State) : Prop :=
  t.timeTag = 0 ∧ t.trg0.selection = .rising ∧ t.trg1.selection = .rising ∧ BlocksAtReset t ∧
    ∀ c, ChannelAtReset (t.channel c)

/-- A whole frame: 24 bytes, with the CRC of the first 23 in the last (R172, R173). -/
abbrev WholeFrame (f : List Byte) : Prop := f.length = 24 ∧ crc8 (f.take 23) = byteAt f 23

/-- Every response and every outgoing copy is a whole frame (R170), and the bytes received are the complete ones of the bits
counted. -/
def PortLaw (s : State) : Prop :=
  ∀ m, WholeFrame (s.port m).response ∧ WholeFrame (s.port m).outgoing ∧
    (s.port m).bytes.length = (s.port m).bitCount / 8

/-- While the part is held in full reset, everything already stands at the value it has when the reset ends: the model's own choice
(log 5, and log 6 for the ports). -/
def HeldLaw (s : State) : Prop := s.inReset = true → s = fullResetState s.pending true s.trg0.level s.trg1.level

end Sys2Proof.Machine
end

