-- ==== Sys2Proof/Certificates/Slice0/Obligations.lean ====
section
/-!
DEFINITION. The statements for the provers: what the commands, the blocks and the whole part do, rule by rule.
-/

section

open Sys2Proof Sys2Proof.Machine

/-! ## The queue and the resets -/

/-- The front command of the queue runs on the state with the queue's rest. -/
def Obligations.StepRunsFrontCommand : Prop :=
  ∀ (c : Instr) (rest : List Instr) (s : State), step { s with pending := c :: rest } = exec c { s with pending := rest }

/-- An empty queue idles (log 2); every command has a next state, and leaves the queue as it is. -/
def Obligations.QueueAndIdling : Prop :=
  (∀ s : State, s.pending = [] → step s = .next s) ∧
  ∀ (c : Instr) (s : State), ∃ t, exec c s = .next t ∧ t.pending = s.pending

/-- A full reset of either source gives every block its full-reset values and holds the part; the recognised levels are kept while
it is held, and taken from the inputs when it ends (R186; what is kept is the model's choice, log 5). -/
def Obligations.FullResetGivesResetValues : Prop :=
  (AtFullReset State.reset ∧ State.reset.inReset = false) ∧
  (∀ (source : ResetSource) (s : State), ∃ t, exec (.fullReset source) s = .next t ∧ AtFullReset t ∧ t.inReset = true ∧
    t.trg0.level = s.trg0.level ∧ t.trg1.level = s.trg1.level ∧ t.pending = s.pending) ∧
  ∀ (level0 level1 : Level) (s : State), s.inReset = true →
    ∃ t, exec (.fullResetEnd level0 level1) s = .next t ∧ AtFullReset t ∧ t.inReset = false ∧
      t.trg0.level = level0 ∧ t.trg1.level = level1 ∧ t.pending = s.pending

/-- While the part is held in full reset, only a full reset or its end changes anything (R186). A command that names what is not at
hand changes nothing (log 1): the end of a full reset that was not given, a frame end other than the port's, an expiry at an empty
position of the claim table, or a settle expiry with no check in flight. The other events that are not at hand stand with their
own statements. -/
def Obligations.NotAtHandChangesNothing : Prop :=
  (∀ (i : Instr) (s : State), s.inReset = true → (∀ source, i ≠ .fullReset source) →
    (∀ level0 level1, i ≠ .fullResetEnd level0 level1) → exec i s = .next s) ∧
  (∀ (level0 level1 : Level) (s : State), s.inReset = false → exec (.fullResetEnd level0 level1) s = .next s) ∧
  (∀ (i : Instr) (m : Master) (s : State), i.frameMaster = some m → s.frameEnd m ≠ some i → exec i s = .next s) ∧
  (∀ (p : Pos) (s : State), s.entry p = none →
    exec (.waitExpiry p) s = .next s ∧ exec (.leaseExpiry p) s = .next s ∧ exec (.offerLapse p) s = .next s) ∧
  ∀ (c : Ch) (raw : FaultSet) (s : State), (∀ ck, (s.channel c).drive ≠ .checking ck) → exec (.settleExpiry c raw) s = .next s

/-! ## Ports and frames -/

/-- The port lines (R170): the falling edge of select, the two clock edges of a frame in progress, and clock edges outside one. -/
def Obligations.PortLines : Prop :=
  ∀ (m : Master) (bit : Bool) (s : State), s.inReset = false →
    exec (.frameBegin m) s =
      .next (s.setPort m
        { s.port m with
          inProgress := true, bitCount := 0, bytes := [], partialByte := 0, outgoing := (s.port m).response
          dataOut := (byteAt (s.port m).response 0).getLsbD 7 }) ∧
    ((s.port m).inProgress = true → (s.port m).bitCount % 8 ≠ 7 →
      exec (.portClockEdge m .rising bit) s =
        .next (s.setPort m
          { s.port m with
            bitCount := (s.port m).bitCount + 1
            partialByte := ((s.port m).partialByte <<< 1) ||| (if bit then 1 else 0) })) ∧
    ((s.port m).inProgress = true → (s.port m).bitCount % 8 = 7 →
      exec (.portClockEdge m .rising bit) s =
        .next (s.setPort m
          { s.port m with
            bitCount := (s.port m).bitCount + 1, partialByte := 0
            bytes := (s.port m).bytes ++ [((s.port m).partialByte <<< 1) ||| (if bit then 1 else 0)] })) ∧
    ((s.port m).inProgress = true → (s.port m).bitCount < 192 →
      exec (.portClockEdge m .falling bit) s =
        .next (s.setPort m
          { s.port m with
            dataOut := (byteAt (s.port m).outgoing ((s.port m).bitCount / 8)).getLsbD (7 - (s.port m).bitCount % 8) })) ∧
    ((s.port m).inProgress = true → 192 ≤ (s.port m).bitCount → (s.port m).outgoing.length = 24 →
      exec (.portClockEdge m .falling bit) s = .next (s.setPort m { s.port m with dataOut := false })) ∧
    ((s.port m).inProgress = false → ∀ edge, exec (.portClockEdge m edge bit) s = .next s)

/-- The frame that encodes a request decodes to it, with every operand at every value, and is whole (R171, R172, R189, R190). -/
def Obligations.FrameRoundTrip : Prop :=
  ∀ (i : Instr) (m : Master) (body : List Byte), i.frameMaster = some m → i.frameBody = some body →
    (∀ code, i = .unknownRequest m code → ∀ j : Instr, j.requestCode ≠ some code) →
    decodeFrame m (encodeFrame i) = i ∧ WholeFrame (encodeFrame i)

/-- A frame of 24 bytes that a master clocks in arrives bit by bit as it was sent, while the port shifts out a copy of its
response, and is at its end the request it spells, or a CRC error (R170 to R172). -/
def Obligations.ClockedFrameIsDelivered : Prop :=
  ∀ (m : Master) (f : List Byte) (s : State), s.inReset = false → f.length = 24 →
    ∃ t, runCommands (.frameBegin m :: clockFrame m f) s = .next t ∧
      t = s.setPort m (t.port m) ∧ (t.port m).inProgress = true ∧ (t.port m).bitCount = 192 ∧ (t.port m).bytes = f ∧
      (t.port m).response = (s.port m).response ∧ (t.port m).outgoing = (s.port m).response ∧
      (t.port m).capture = (s.port m).capture ∧
      (crc8 (f.take 23) = byteAt f 23 → t.frameEnd m = some (decodeFrame m f)) ∧
      (crc8 (f.take 23) ≠ byteAt f 23 → t.frameEnd m = some (.frameError m))

/-- A frame that ends with a LENGTH or CRC error (R171) is answered FRAME_ERROR, captured or marked LOST (R176), and noticed; nothing
else changes (R175). -/
def Obligations.FrameErrorTaken : Prop :=
  ∀ (m : Master) (s : State), s.inReset = false → (s.port m).inProgress = true →
    ((s.port m).bitCount ≠ 192 ∨ crc8 ((s.port m).bytes.take 23) ≠ byteAt (s.port m).bytes 23) →
    let kind : FrameErrorKind := if (s.port m).bitCount ≠ 192 then .length else .crc
    exec (.frameError m) s =
      .next ((s.setPort m
        { s.port m with
          inProgress := false
          response := sealFrame [(s.port m).bytes.headD 0x00, 0x0E, if (s.port m).bitCount ≠ 192 then 0x01 else 0x02]
          capture :=
            match (s.port m).capture with
            | none => some { kind := kind, firstByte := (s.port m).bytes.head?, tag := s.timeTag, lost := false }
            | some held => some { held with lost := true } }).raise m .port)

/-- The head of the check order (R171, R174): an unknown code, a malformed parameter, then the barring of all requests but the
fifteen exempt ones (R38), which are taken whoever sends them; a request refused there changes nothing but the answer. -/
def Obligations.HeadOfCheckOrder : Prop :=
  (∀ (m : Master) (code : Byte) (s : State), s.frameEnd m = some (.unknownRequest m code) →
    exec (.unknownRequest m code) s = .next ((s.endFrame m).respond m code { status := .unknownRequest, results := [] })) ∧
  (∀ (i : Instr) (m : Master) (code : Byte) (s : State), s.frameEnd m = some i → i.requestCode = some code →
    (i.parametersOk = false →
      exec i s = .next ((s.endFrame m).respond m code { status := .badParameter, results := [] })) ∧
    (i.parametersOk = true → i.barrable = true → s.barred m = true →
      exec i s = .next ((s.endFrame m).respond m code { status := .barred, results := [] })) ∧
    (i.parametersOk = true → i.barrable = false →
      ∃ t, exec i s = .next t ∧ byteAt (t.port m).response 1 = 0x00)) ∧
  ∀ (i : Instr) (code : Byte), i.requestCode = some code →
    (i.barrable = false ↔
      code ∈ [0x00#8, 0x16, 0x17, 0x24, 0x25, 0x26, 0x37, 0x40, 0x41, 0x50, 0x51, 0x52, 0x60, 0x61, 0x62])

/-- A request that is answered with any status but OK changes nothing in the part: only its port's flag is cleared and its port's
buffer takes the answer (R174). -/
def Obligations.RefusedRequestChangesNothing : Prop :=
  ∀ (i : Instr) (m : Master) (code : Byte) (s t : State), i.requestCode = some code → s.frameEnd m = some i →
    exec i s = .next t → byteAt (t.port m).response 1 ≠ 0x00 →
    t = s.setPort m { s.port m with inProgress := false, response := (t.port m).response }

/-- No frame of a master, good or bad, changes a channel unit that the master does not hold (R4). -/
def Obligations.NonHolderChangesNoChannel : Prop :=
  ∀ (i : Instr) (m : Master) (c : Ch) (s t : State), HolderLaw s → i.frameMaster = some m → s.holder c ≠ some m →
    exec i s = .next t → t.channel c = s.channel c

/-- A request that acts on channels is answered NOT_HOLDER unless its sender holds every channel it acts on (R4, R59, R79, R107,
R124, R137, R185, R187). -/
def Obligations.NotHolderRefusals : Prop :=
  ∀ (i : Instr) (m : Master) (code : Byte) (set : ChannelSet) (c : Ch) (s : State), i.requestCode = some code →
    actsOn i = some set → PassesHead i m s → set.getLsbD c.val = true → s.holder c ≠ some m →
    exec i s = .next ((s.endFrame m).respond m code { status := .notHolder, results := [] })

/-- The nine reading requests answer OK with the state as it stands, and change nothing but the answer (R27, R65, R69, R98, R112,
R165, R173, R177, R183); the claim readout, the channel readout and the capture are spelled field by field (R192, R193). -/
def Obligations.ReadingRequests : Prop :=
  ∀ (m : Master) (s : State),
    (s.frameEnd m = some (.nop m) →
      exec (.nop m) s = .next ((s.endFrame m).respond m 0x00 (.ok []))) ∧
    (∀ selector value : Byte, s.frameEnd m = some (.readClaim m selector value) →
      (Instr.readClaim m selector value).parametersOk = true →
      (∀ p e, (selector = 0 ∧ s.claims.find value = some (p, e)) ∨
          (selector = 1 ∧ p.val = value.toNat ∧ s.entry p = some e) →
        let answers (state : Byte) (rest : List Byte) : Prop :=
          exec (.readClaim m selector value) s =
            .next ((s.endFrame m).respond m 0x17
              (.ok ([state, e.number, BitVec.ofNat 8 p.val, e.master.code] ++ setBytes e.set ++ bytes16 e.leasePeriod ++ rest)))
        (∀ wait expected, e.state = .pending wait expected →
          answers 0x01
            ([BitVec.ofNat 8 (s.claims.order.idxOf p + 1)] ++
              (match wait with
                | none => [0x00, 0x00, 0x00, 0x00]
                | some w => bytes16 w.limit ++ bytes16 w.remaining) ++
              (match expected with
                | none => [0x00, 0x00, 0x00]
                | some digest => [0x01] ++ bytes16 digest))) ∧
        (∀ lease tag, e.state = .held lease tag → answers 0x02 (bytes16 lease ++ bytes32 tag ++ [0xFF, 0x00, 0x00])) ∧
        (∀ lease tag target remaining, e.state = .offered lease tag target remaining →
          answers 0x03 (bytes16 lease ++ bytes32 tag ++ [target.code] ++ bytes16 remaining))) ∧
      ((selector = 0 ∧ s.claims.find value = none) ∨
          (selector = 1 ∧ ∀ p : Pos, p.val = value.toNat → s.entry p = none) →
        exec (.readClaim m selector value) s = .next ((s.endFrame m).respond m 0x17 (.ok [0x00])))) ∧
    (∀ (channel : Byte) (c : Ch), s.frameEnd m = some (.readChannel m channel) → channel.toNat = c.val →
      let u := s.channel c
      exec (.readChannel m channel) s =
        .next ((s.endFrame m).respond m 0x24
          (.ok (bytes16 u.code ++ [u.drive.code, u.activeStage.code, if u.faultLatch then 0x01 else 0x00] ++
            (match s.claims.holding c with
              | none => [0xFF, 0x00]
              | some e => [e.master.code, e.number]) ++
            (match u.drive with
              | .moving mv => bytes16 mv.target ++ [mv.origin.code, 0x00, 0x00]
              | .checking ck => [0x00, 0x00, 0x00, ck.attempt, ck.settleRemaining]
              | .steady => [0x00, 0x00, 0x00, 0x00, 0x00]) ++
            [u.list.code] ++
            (match u.list with
              | .empty | .loaded => [0x00, 0x00, 0x00, 0x00]
              | .armed .trg0 => [0x00, 0x00, 0x00, 0x00]
              | .armed .trg1 => [0x00, 0x01, 0x00, 0x00]
              | .running r | .paused r => [BitVec.ofNat 8 r.index.val, r.phase.code] ++ bytes16 r.passCount) ++
            (match u.lastCheck with
              | none => [0x00, 0x00, 0x00, 0x00]
              | some k =>
                [k.attempts, k.verdict.raw.setWidth 8, k.verdict.counted.setWidth 8,
                  match k.outcome with
                  | .passed => 0x00
                  | .failed => 0x01]))))) ∧
    (∀ (channel : Byte) (c : Ch), s.frameEnd m = some (.readConfig m channel) → channel.toNat = c.val →
      exec (.readConfig m channel) s =
        .next ((s.endFrame m).respond m 0x25 (.ok ((s.channel c).config.bytes ++ bytes16 (s.channel c).digest)))) ∧
    (∀ set : Word16, s.frameEnd m = some (.readDigest m set) → set ≠ 0 → set.toNat < 4096 →
      exec (.readDigest m set) s =
        .next ((s.endFrame m).respond m 0x26
          (.ok (bytes16 set ++
            bytes16 (crc16 ((channelsOf (channelSetOf set)).flatMap (fun c => (s.channel c).config.bytes))))))) ∧
    (∀ (channel slot : Byte) (c : Ch) (n : Fin 16), s.frameEnd m = some (.readStep m channel slot) →
      channel.toNat = c.val → slot.toNat = n.val →
      exec (.readStep m channel slot) s =
        .next ((s.endFrame m).respond m 0x37
          (.ok ([slot] ++ (match (s.channel c).slots[n] with
              | none => [0x00, 0x00, 0x00, 0x00, 0x00, 0x00, 0x00, 0x00]
              | some st => [0x01] ++ st.bytes) ++
            [(s.channel c).list.code] ++ (s.channel c).descriptor.bytes)))) ∧
    (s.frameEnd m = some (.readNotices m) →
      exec (.readNotices m) s =
        .next ((s.endFrame m).respond m 0x50
          (.ok (noticeBytes (s.notice m).pending ++ noticeBytes (s.notice m).mask ++
            [match (s.notice m).handoff with
              | none => 0x00
              | some r => r.code] ++
            noticeBytes ((s.notice m).pending &&& (~~~(s.notice m).mask ||| Notice.revoked.bit)))))) ∧
    (s.frameEnd m = some (.readPortError m) →
      exec (.readPortError m) s = .next ((s.endFrame m).respond m 0x60
        (.ok (match (s.port m).capture with
          | none => [0x00]
          | some k =>
            [0x01, k.kind.code, if k.firstByte.isSome then 0x01 else 0x00, k.firstByte.getD 0x00] ++ bytes32 k.tag ++
              [if k.lost then 0x01 else 0x00])))) ∧
    (s.frameEnd m = some (.readTime m) →
      exec (.readTime m) s =
        .next ((s.endFrame m).respond m 0x62
          (.ok (bytes32 s.timeTag ++ [s.trg0.selection.code, s.trg1.selection.code,
            (if s.trg0.level = .high then 0x01 else 0x00) ||| (if s.trg1.level = .high then 0x02 else 0x00)]))))

/-! ## Claims -/

/-- The checks of a CLAIM after its head, in their order: BUSY, OVERLAP, TABLE_FULL (R8). -/
def Obligations.ClaimRefusals : Prop :=
  ∀ (m : Master) (set lease wait : Word16) (presence : Byte) (digest : Word16) (s : State),
    PassesHead (.claim m set lease wait presence digest) m s →
    let answers (status : Status) : Prop :=
      exec (.claim m set lease wait presence digest) s =
        .next ((s.endFrame m).respond m 0x10 { status := status, results := [] })
    let waits : Prop := ∃ p e, s.entry p = some e ∧ e.isPending = true ∧ e.master = m
    let overlaps : Prop := ∃ c : Ch, (channelSetOf set).getLsbD c.val = true ∧ s.holder c = some m
    (waits → answers .busy) ∧ (¬ waits → overlaps → answers .overlap) ∧
      (¬ waits → ¬ overlaps → (∀ p, s.entry p ≠ none) → answers .tableFull)

/-- A CLAIM that is taken (R6, R9, R10): its entry stands PENDING in the lowest free position and at the tail of the pending order,
grant evaluation runs, and the answer tells what then stands at the position. With no claim waiting the outcome is (R13, R14):
granted when its channels are free, refused when they are but the expected digest differs, and PENDING at place 1 when one is
held. -/
def Obligations.ClaimTaken : Prop :=
  ∀ (m : Master) (set lease wait : Word16) (presence : Byte) (digest : Word16) (p : Pos) (s : State),
    PassesHead (.claim m set lease wait presence digest) m s →
    (∀ q e, s.entry q = some e → e.isPending = true → e.master ≠ m) →
    (∀ c : Ch, (channelSetOf set).getLsbD c.val = true → s.holder c ≠ some m) →
    s.entry p = none → (∀ q : Pos, q < p → s.entry q ≠ none) →
    let n := s.claims.newNumber
    let pending : ClaimEntry :=
      { number := n, master := m, set := channelSetOf set, leasePeriod := lease
        state := .pending (if wait = 0 then none else some { limit := wait, remaining := wait })
          (if presence = 1 then some digest else none) }
    let held : ClaimEntry := { pending with state := .held lease s.timeTag }
    let t : State :=
      ((s.endFrame m).setClaims
        { s.claims with
          entries := s.claims.entries.set p (some pending), order := s.claims.order ++ [p]
          nextNumber := numberAfter n }).grantEvaluation
    let answers (results : List Byte) : Prop :=
      exec (.claim m set lease wait presence digest) s = .next (t.respond m 0x10 (.ok results))
    (t.entry p = some held ∨ t.entry p = some pending ∨ t.entry p = none) ∧
    (t.entry p = some held → answers ([n, 0x02] ++ bytes32 s.timeTag ++ bytes16 lease)) ∧
    (t.entry p = some pending → answers [n, 0x01, BitVec.ofNat 8 (t.claims.order.idxOf p + 1)]) ∧
    (t.entry p = none → answers [n, 0x04, 0x02]) ∧
    (s.claims.order = [] → (∀ q e, s.entry q = some e → e.isPending = false) →
      let agrees : Prop := presence = 1 → digest = s.combinedDigest (channelSetOf set)
      let free : Prop := ∀ c : Ch, (channelSetOf set).getLsbD c.val = true → s.holder c = none
      (free → agrees →
        exec (.claim m set lease wait presence digest) s =
          .next (((((s.endFrame m).setClaims
              { s.claims with
                entries := s.claims.entries.set p (some held), nextNumber := numberAfter n }).raise m .granted).append
                  (.claim m n (channelSetOf set) .granted)).respond m 0x10
            (.ok ([n, 0x02] ++ bytes32 s.timeTag ++ bytes16 lease)))) ∧
      (free → ¬ agrees →
        exec (.claim m set lease wait presence digest) s =
          .next (((((s.endFrame m).setClaims { s.claims with nextNumber := numberAfter n }).raise m .refused).append
              (.claim m n (channelSetOf set) (.refused .digest))).respond m 0x10 (.ok [n, 0x04, 0x02]))) ∧
      (¬ free →
        exec (.claim m set lease wait presence digest) s =
          .next (((s.endFrame m).setClaims
              { s.claims with
                entries := s.claims.entries.set p (some pending), order := [p], nextNumber := numberAfter n }).respond m 0x10
            (.ok [n, 0x01, 0x01]))))

/-- What RENEW answers and does, by the entry that carries the number (R18). -/
def Obligations.RenewOutcomes : Prop :=
  ∀ (m : Master) (number : Byte) (s : State), PassesHead (.renew m number) m s →
    let answers (status : Status) : Prop :=
      exec (.renew m number) s = .next ((s.endFrame m).respond m 0x11 { status := status, results := [] })
    (s.claims.find number = none → answers .noClaim) ∧
    ∀ p e, s.claims.find number = some (p, e) →
      (e.master ≠ m → answers .notHolder) ∧
      (e.master = m → ∀ wait expected, e.state = .pending wait expected → answers .wrongState) ∧
      (e.master = m → ∀ lease tag, e.state = .held lease tag →
        exec (.renew m number) s =
          .next (((s.endFrame m).setClaims
              (s.claims.setEntry p (some { e with state := .held e.leasePeriod tag }))).respond m 0x11
            (.ok (bytes16 e.leasePeriod)))) ∧
      (e.master = m → ∀ lease tag target remaining, e.state = .offered lease tag target remaining →
        exec (.renew m number) s =
          .next (((s.endFrame m).setClaims
              (s.claims.setEntry p (some { e with state := .offered e.leasePeriod tag target remaining }))).respond m 0x11
            (.ok (bytes16 e.leasePeriod))))

/-- What RELEASE answers and does (R21, R22): release orders to the channels of the claim, its removal, the record, and then grant
evaluation. -/
def Obligations.ReleaseOutcomes : Prop :=
  ∀ (m : Master) (number mode : Byte) (s : State), PassesHead (.release m number mode) m s →
    let answers (status : Status) : Prop :=
      exec (.release m number mode) s = .next ((s.endFrame m).respond m 0x12 { status := status, results := [] })
    let order : ReleaseMode := if mode = 0 then .hold else .fallback
    (s.claims.find number = none → answers .noClaim) ∧
    ∀ p e, s.claims.find number = some (p, e) →
      (e.master ≠ m → answers .notHolder) ∧
      (e.master = m → e.inForce = false → answers .wrongState) ∧
      (e.master = m → e.inForce = true →
        exec (.release m number mode) s =
          .next ((((((s.endFrame m).orderAll e.set (ChannelUnit.releaseOrder order)).setClaims (s.claims.remove p)).append
            (.claim m e.number e.set (.released order))).grantEvaluation).respond m 0x12 (.ok [])))

/-- What WITHDRAW answers and does, by the state of the entry and the sender's part in it (R25, R26, R49, R50). -/
def Obligations.WithdrawOutcomes : Prop :=
  ∀ (m : Master) (number : Byte) (s : State), PassesHead (.withdraw m number) m s →
    let answers (status : Status) : Prop :=
      exec (.withdraw m number) s = .next ((s.endFrame m).respond m 0x13 { status := status, results := [] })
    (s.claims.find number = none → answers .noClaim) ∧
    ∀ p e, s.claims.find number = some (p, e) →
      (e.master = m → ∀ wait expected, e.state = .pending wait expected →
        exec (.withdraw m number) s =
          .next ((((s.endFrame m).setClaims (s.claims.remove p)).grantEvaluation).respond m 0x13 (.ok [0x01, 0x00, 0x00]))) ∧
      (e.master ≠ m → (∀ lease tag remaining, e.state ≠ .offered lease tag m remaining) → answers .notHolder) ∧
      (e.master = m → ∀ lease tag, e.state = .held lease tag → answers .wrongState) ∧
      (e.master = m → ∀ lease tag target remaining, e.state = .offered lease tag target remaining →
        exec (.withdraw m number) s =
          .next (((s.endFrame m).setClaims
              (s.claims.setEntry p (some { e with state := .held e.leasePeriod tag }))).respond m 0x13
            (.ok ([0x02] ++ bytes16 e.leasePeriod)))) ∧
      (e.master ≠ m → ∀ lease tag remaining, e.state = .offered lease tag m remaining →
        exec (.withdraw m number) s =
          .next ((((s.endFrame m).setClaims (s.claims.setEntry p (some { e with state := .held lease tag }))).onNotices
            e.master (NoticeState.raiseHandoff .declined)).respond m 0x13 (.ok [0x03, 0x00, 0x00])))

/-- What OFFER answers and does (R42, R43). -/
def Obligations.OfferOutcomes : Prop :=
  ∀ (m : Master) (number target : Byte) (time : Word16) (s : State), PassesHead (.offer m number target time) m s →
    let answers (status : Status) : Prop :=
      exec (.offer m number target time) s = .next ((s.endFrame m).respond m 0x14 { status := status, results := [] })
    (s.claims.find number = none → answers .noClaim) ∧
    ∀ p e, s.claims.find number = some (p, e) →
      (e.master ≠ m → answers .notHolder) ∧
      (e.master = m → (∀ lease tag, e.state ≠ .held lease tag) → answers .wrongState) ∧
      (e.master = m → ∀ (heir : Master) lease tag, heir.code = target → e.state = .held lease tag →
        exec (.offer m number target time) s =
          .next ((((s.endFrame m).setClaims
              (s.claims.setEntry p (some { e with state := .offered e.leasePeriod tag heir time }))).raise heir .offered).respond m
            0x14 (.ok (bytes16 e.leasePeriod ++ bytes16 time))))

/-- What ACCEPT answers and does (R46, R47): the claim passes to the new holder, the old one is noticed, a record is written; no
channel unit is touched (R48). -/
def Obligations.AcceptOutcomes : Prop :=
  ∀ (m : Master) (number : Byte) (lease : Word16) (s : State), PassesHead (.accept m number lease) m s →
    let answers (status : Status) : Prop :=
      exec (.accept m number lease) s = .next ((s.endFrame m).respond m 0x15 { status := status, results := [] })
    (s.claims.find number = none → answers .noOffer) ∧
    ∀ p e, s.claims.find number = some (p, e) →
      ((∀ old tag remaining, e.state ≠ .offered old tag m remaining) → answers .noOffer) ∧
      ∀ old tag remaining, e.state = .offered old tag m remaining →
        let waits : Prop :=
          ∃ q f, s.entry q = some f ∧ f.isPending = true ∧ f.master = m ∧ f.set &&& e.set ≠ 0
        (waits → answers .busy) ∧
        (¬ waits →
          exec (.accept m number lease) s =
            .next (((((s.endFrame m).setClaims
                (s.claims.setEntry p
                  (some { e with master := m, leasePeriod := lease, state := .held lease tag }))).onNotices e.master
                (NoticeState.raiseHandoff .accepted)).append (.claim e.master e.number e.set (.handoffDone m))).respond m 0x15
              (.ok (bytes16 lease))))

/-- The requests that acknowledge or clear: ACK_REVOKE (R40), ACK_NOTICES (R166), SET_NOTICE_MASK (R168), CLEAR_PORT_ERROR (R178).
The line follows (R164). Beside them the setting of a notice: its own bit and the line (R161), the HANDOFF reason replaced (R162),
and nothing of another master. -/
def Obligations.AcknowledgingRequests : Prop :=
  (∀ (n : NoticeState) (k : Notice),
    let pending : NoticeSet :=
      n.pending ||| match k with
        | .granted => 0x001
        | .refused => 0x002
        | .revoked => 0x004
        | .offered => 0x008
        | .handoff => 0x010
        | .list => 0x020
        | .fault => 0x040
        | .log => 0x080
        | .port => 0x100
    n.raise k = { n with pending := pending, line := decide (pending &&& (~~~n.mask ||| 0x004#9) ≠ 0) }) ∧
  (∀ (n : NoticeState) (reason : HandoffReason),
    let pending : NoticeSet := n.pending ||| 0x010
    n.raiseHandoff reason =
      { n with
        pending := pending, handoff := some reason, line := decide (pending &&& (~~~n.mask ||| 0x004#9) ≠ 0) }) ∧
  (∀ (m : Master) (s : State),
    (∀ k, s.raise m k = s.onNotices m (NoticeState.raise k)) ∧
    ∀ f, s.onNotices m f = { s with notices := (s.onNotices m f).notices } ∧ (s.onNotices m f).notice m = f (s.notice m) ∧
      ∀ other, other ≠ m → (s.onNotices m f).notice other = s.notice other) ∧
  ∀ (m : Master) (s : State),
    let n := s.notice m
    let line (pending mask : NoticeSet) : Bool := decide (pending &&& (~~~mask ||| 0x004#9) ≠ 0)
    (s.frameEnd m = some (.ackRevoke m) →
      exec (.ackRevoke m) s =
        .next ((((s.endFrame m).setClaims { s.claims with revoke := s.claims.revoke.set m .active }).onNotices m (fun _ =>
          { n with pending := n.pending &&& 0x1FB#9, line := line (n.pending &&& 0x1FB#9) n.mask })).respond m 0x16
          (.ok [if s.barred m then 0x01 else 0x00]))) ∧
    (∀ set : Word16, s.frameEnd m = some (.ackNotices m set) → set.toNat < 512 →
      let rest := n.pending &&& (~~~(set.setWidth 9) ||| 0x004#9)
      exec (.ackNotices m set) s =
        .next (((s.endFrame m).onNotices m (fun _ => { n with pending := rest, line := line rest n.mask })).respond m 0x51
          (.ok (noticeBytes rest)))) ∧
    (∀ set : Word16, s.frameEnd m = some (.setNoticeMask m set) → set.toNat < 512 →
      let mask := set.setWidth 9 &&& 0x1FB#9
      exec (.setNoticeMask m set) s =
        .next (((s.endFrame m).onNotices m (fun _ => { n with mask := mask, line := line n.pending mask })).respond m 0x52
          (.ok (noticeBytes mask ++ noticeBytes n.pending)))) ∧
    (s.frameEnd m = some (.clearPortError m) →
      exec (.clearPortError m) s =
        .next ((s.setPort m { s.port m with inProgress := false, capture := none }).respond m 0x61
          (.ok (match (s.port m).capture with
            | none => [0x00]
            | some k =>
              [0x01, k.kind.code, if k.firstByte.isSome then 0x01 else 0x00, k.firstByte.getD 0x00] ++ bytes32 k.tag ++
                [if k.lost then 0x01 else 0x00]))))

/-- WAIT_EXPIRY and OFFER_LAPSE (R17, R45), and neither when the timer has not run out (log 1). -/
def Obligations.WaitAndOfferExpiries : Prop :=
  ∀ (p : Pos) (e : ClaimEntry) (s : State), s.inReset = false → s.entry p = some e →
    (∀ limit expected, e.state = .pending (some { limit := limit, remaining := 0 }) expected →
      exec (.waitExpiry p) s =
        .next ((((s.setClaims (s.claims.remove p)).raise e.master .refused).append
          (.claim e.master e.number e.set (.refused .timeout))).grantEvaluation)) ∧
    (∀ lease tag target, e.state = .offered lease tag target 0 →
      exec (.offerLapse p) s =
        .next ((s.setClaims (s.claims.setEntry p (some { e with state := .held lease tag }))).onNotices e.master
          (NoticeState.raiseHandoff .lapsed))) ∧
    ((∀ limit expected, e.state ≠ .pending (some { limit := limit, remaining := 0 }) expected) →
      exec (.waitExpiry p) s = .next s) ∧
    ((∀ lease tag target, e.state ≠ .offered lease tag target 0) → exec (.offerLapse p) s = .next s)

/-- LEASE_EXPIRY (R32): revoke orders, removal, barring with REVOKED, the record, and then grant evaluation; and none while lease
remaining is above 0 (log 1). -/
def Obligations.LeaseExpiryRevokes : Prop :=
  ∀ (p : Pos) (e : ClaimEntry) (s : State), s.inReset = false → s.entry p = some e →
    (e.leaseRemaining = some 0 →
      exec (.leaseExpiry p) s =
        .next ((((((s.orderAll e.set ChannelUnit.revokeOrder).setClaims
          { s.claims.remove p with revoke := s.claims.revoke.set e.master .barred }).raise e.master .revoked).append
            (.claim e.master e.number e.set .leaseExpired))).grantEvaluation)) ∧
    (e.leaseRemaining ≠ some 0 → exec (.leaseExpiry p) s = .next s)

/-- Grant evaluation visits the entries of the pending order as it stands when it begins, oldest first, each once (R12, R15). One
visit (R12 to R14): the entry stays, is refused for its digest, or is granted; a position with no PENDING entry stays as it is. -/
def Obligations.GrantVisit : Prop :=
  (∀ s : State, s.claims.order = [] → s.grantEvaluation = s) ∧
  (∀ (s : State) (p : Pos) (rest : List Pos), s.claims.order = p :: rest →
    s.grantEvaluation = rest.foldl State.visit (s.visit p)) ∧
  (∀ (s : State) (p : Pos), (∀ e, s.entry p = some e → e.isPending = false) → s.visit p = s) ∧
  ∀ (s : State) (p : Pos) (e : ClaimEntry) (wait : Option WaitTimer) (expected : Option Word16), s.entry p = some e →
    e.state = .pending wait expected →
    let free : Prop := ∀ c : Ch, e.set.getLsbD c.val = true → s.holder c = none
    let first : Prop :=
      ∀ q f, q ∈ s.claims.order.takeWhile (fun q => q ≠ p) → s.entry q = some f → f.set &&& e.set = 0
    (¬ (free ∧ first) → s.visit p = s) ∧
    (free → first → (∃ d, expected = some d ∧ d ≠ s.combinedDigest e.set) →
      s.visit p =
        ((s.setClaims (s.claims.remove p)).raise e.master .refused).append
          (.claim e.master e.number e.set (.refused .digest))) ∧
    (free → first → (∀ d, expected = some d → d = s.combinedDigest e.set) →
      s.visit p =
        ((s.setClaims
            { s.claims with
              entries := s.claims.entries.set p (some { e with state := .held e.leasePeriod s.timeTag })
              order := s.claims.order.filter (fun q => q ≠ p) }).raise e.master .granted).append
          (.claim e.master e.number e.set .granted))

/-- Lease renewal (R19): each entry through which the master holds a channel of the set, once, and nothing else. -/
def Obligations.LeaseRenewal : Prop :=
  ∀ (s : State) (m : Master) (set : ChannelSet), ∃ entries,
    s.renewLeases m set = s.setClaims { s.claims with entries := entries } ∧
    (∀ p : Pos, s.entry p = none → entries[p] = none) ∧
    ∀ (p : Pos) e, s.entry p = some e →
      (e.inForce = false ∨ e.master ≠ m ∨ e.set &&& set = 0 → entries[p] = some e) ∧
      (e.master = m → e.set &&& set ≠ 0 →
        (∀ lease tag, e.state = .held lease tag → entries[p] = some { e with state := .held e.leasePeriod tag }) ∧
        ∀ lease tag target remaining, e.state = .offered lease tag target remaining →
          entries[p] = some { e with state := .offered e.leasePeriod tag target remaining })

/-- A CLAIM gets the first number from the next one on that no entry carries (R6). -/
def Obligations.NewClaimNumber : Prop :=
  ∀ (s : State), s.claims.nextNumber ≠ 0 → (∃ p, s.entry p = none) →
    ∃ k : Nat, k < 8 ∧ s.claims.newNumber = numberAfter^[k] s.claims.nextNumber ∧
      (∀ p e, s.entry p = some e → e.number ≠ s.claims.newNumber) ∧
      ∀ j < k, ∃ p e, s.entry p = some e ∧ e.number = numberAfter^[j] s.claims.nextNumber

/-! ## Channel requests -/

/-- SET_RANGE and SET_POLICY on a channel that the requester holds (R59, R60, R62, R63). -/
def Obligations.ConfigurationRequests : Prop :=
  ∀ (m : Master) (c : Ch) (channel : Byte) (s : State), channel.toNat = c.val → s.holder c = some m →
    let u := s.channel c
    (∀ low high fallback maxRate, PassesHead (.setRange m channel low high fallback maxRate) m s →
      let config : ConfigRecord :=
        { u.config with range := { low := low, high := high, fallback := fallback, maxRate := maxRate } }
      (u.drive ≠ .steady ∨ u.list.active = true →
        exec (.setRange m channel low high fallback maxRate) s =
          .next ((s.endFrame m).respond m 0x20 { status := .wrongState, results := [] })) ∧
      (u.drive = .steady → u.list.active = false → ¬ (low ≤ u.code ∧ u.code ≤ high) →
        exec (.setRange m channel low high fallback maxRate) s =
          .next ((s.endFrame m).respond m 0x20 { status := .limit, results := [] })) ∧
      (u.drive = .steady → u.list.active = false → low ≤ u.code → u.code ≤ high →
        exec (.setRange m channel low high fallback maxRate) s =
          .next (((((s.endFrame m).setChannel c
              { u with
                config := config, digest := crc16 config.bytes, slots := Vector.replicate 16 none, list := .empty }).append
              (.channel m c (.configChanged (crc16 config.bytes)))).renewLeases m (onlyChannel c)).respond m 0x20
            (.ok (bytes16 (crc16 config.bytes)))))) ∧
    ∀ settle retry packed counted fault revoke,
      PassesHead (.setPolicy m channel settle retry packed counted fault revoke) m s →
      let config : ConfigRecord := { u.config with policy := policyOf settle retry packed counted fault revoke }
      (u.drive ≠ .steady ∨ u.list.active = true →
        exec (.setPolicy m channel settle retry packed counted fault revoke) s =
          .next ((s.endFrame m).respond m 0x21 { status := .wrongState, results := [] })) ∧
      (u.drive = .steady → u.list.active = false →
        exec (.setPolicy m channel settle retry packed counted fault revoke) s =
          .next (((((s.endFrame m).setChannel c
              { u with config := config, digest := crc16 config.bytes, activeStage := config.policy.preferred }).append
              (.channel m c (.configChanged (crc16 config.bytes)))).renewLeases m (onlyChannel c)).respond m 0x21
            (.ok (bytes16 (crc16 config.bytes)))))

/-- The bytes of a SET_RANGE or SET_POLICY become the record's bytes (R190, R191): the digest is the CRC of what was sent (R66).
Beside them the encodings of the fields that answers carry: byte order, sets, value codes and status codes (R189). -/
def Obligations.RecordBytesAsSent : Prop :=
  (∀ (m : Master) (channel : Byte) (low high fallback maxRate : Word16) (policy : PolicyPart),
    (Instr.setRange m channel low high fallback maxRate).parametersOk = true →
    ({ range := rangeOf low high fallback maxRate, policy := policy } : ConfigRecord).bytes.take 8 =
      bytes16 low ++ bytes16 high ++ bytes16 fallback ++ bytes16 maxRate) ∧
  (∀ (m : Master) (channel settle retry packed counted fault revoke : Byte) (range : RangePart),
    (Instr.setPolicy m channel settle retry packed counted fault revoke).parametersOk = true →
    ({ range := range, policy := policyOf settle retry packed counted fault revoke } : ConfigRecord).bytes.drop 8 =
      [settle, retry, packed, counted, fault, revoke]) ∧
  (∀ (m : Master) (channel slot : Byte) (target rate dwell : Word16) (flags : Byte),
    (Instr.loadStep m channel slot target rate dwell flags).parametersOk = true →
    (stepOf target rate dwell flags).bytes = bytes16 target ++ bytes16 rate ++ bytes16 dwell ++ [flags]) ∧
  (∀ (m : Master) (channel count mode : Byte) (period : Word16) (onFault recordPasses : Byte),
    (Instr.setList m channel count mode period onFault recordPasses).parametersOk = true →
    (descriptorOf count mode period onFault recordPasses).bytes =
      [count, mode] ++ bytes16 period ++ [onFault, recordPasses]) ∧
  (∀ (w : Word16) (v : Word32) (set : ChannelSet) (notices : NoticeSet),
    bytes16 w = [w.extractLsb' 8 8, w.extractLsb' 0 8] ∧
    bytes32 v = [v.extractLsb' 24 8, v.extractLsb' 16 8, v.extractLsb' 8 8, v.extractLsb' 0 8] ∧
    setBytes set = bytes16 (set.setWidth 16) ∧ noticeBytes notices = bytes16 (notices.setWidth 16)) ∧
  (∀ (mv : Move) (ck : Check) (l : Line) (r : Runtime) (gap : Word16),
    [Drive.steady, .moving mv, .checking ck].map Drive.code = [0x00, 0x01, 0x02] ∧
    [ListState.empty, .loaded, .armed l, .running r, .paused r].map ListState.code = [0x00, 0x01, 0x02, 0x03, 0x04] ∧
    [RunPhase.move, .check, .hold, .gap gap].map RunPhase.code = [0x00, 0x01, 0x02, 0x03]) ∧
  [Master.m0, .m1, .m2].map Master.code = [0x00, 0x01, 0x02] ∧ [Stage.a, .b].map Stage.code = [0x00, 0x01] ∧
  [MoveOrigin.write, .step, .fallback].map MoveOrigin.code = [0x01, 0x02, 0x03] ∧
  [EdgeSelection.rising, .falling, .both].map EdgeSelection.code = [0x00, 0x01, 0x02] ∧
  [HandoffReason.accepted, .declined, .lapsed].map HandoffReason.code = [0x01, 0x02, 0x03] ∧
  [FrameErrorKind.length, .crc].map FrameErrorKind.code = [0x01, 0x02] ∧
  [Status.ok, .unknownRequest, .badParameter, .notHolder, .barred, .tableFull, .busy, .overlap, .noClaim, .wrongState, .limit,
    .faulted, .noOffer, .frameError, .noResponse].map Status.code =
    [0x00, 0x01, 0x02, 0x03, 0x04, 0x05, 0x06, 0x07, 0x08, 0x09, 0x0A, 0x0B, 0x0C, 0x0E, 0x0F]

/-- The effective rate of a move, by the requested rate and the max rate (R75); 0 is a jump. -/
def Obligations.EffectiveRate : Prop :=
  ∀ r m : Word16,
    (r = 0 → effectiveRate r m = m) ∧ (r ≠ 0 → m = 0 → effectiveRate r m = r) ∧
    (r ≠ 0 → m ≠ 0 → effectiveRate r m = if r ≤ m then r else m)

/-- WRITE on a channel that the requester holds (R79, R80): refused by the list, the latch and the limits in this order, and
otherwise a move that runs, or one that ends at once, with or without a check. -/
def Obligations.WriteOutcomes : Prop :=
  ∀ (m : Master) (c : Ch) (channel : Byte) (code rate : Word16) (s : State), channel.toNat = c.val → s.holder c = some m →
    PassesHead (.write m channel code rate) m s →
    let u := s.channel c
    let range := u.config.range
    let effective := effectiveRate rate range.maxRate
    let answers (status : Status) : Prop :=
      exec (.write m channel code rate) s = .next ((s.endFrame m).respond m 0x22 { status := status, results := [] })
    let leaves (drive : Drive) (now : Word16) : Prop :=
      exec (.write m channel code rate) s =
        .next ((((s.endFrame m).setChannel c { u with code := now, drive := drive }).renewLeases m (onlyChannel c)).respond m 0x22
          (.ok (bytes16 effective ++ [drive.code])))
    (u.list.active = true → answers .wrongState) ∧
    (u.list.active = false → u.faultLatch = true → answers .faulted) ∧
    (u.list.active = false → u.faultLatch = false → ¬ (range.low ≤ code ∧ code ≤ range.high) → answers .limit) ∧
    (u.list.active = false → u.faultLatch = false → range.low ≤ code → code ≤ range.high →
      (effective ≠ 0 → code ≠ u.code →
        leaves (.moving
          { target := code, rate := effective, origin := .write, checkRequired := u.config.policy.checkWrites
            advanceDue := false }) u.code) ∧
      (effective = 0 ∨ code = u.code → u.config.policy.checkWrites = false → leaves .steady code) ∧
      (effective = 0 ∨ code = u.code → u.config.policy.checkWrites = true →
        leaves (.checking
          { origin := .write, attempt := 1, settleRemaining := u.config.policy.settleTime, previous := none }) code))

/-- CLEAR_FAULT, LOAD_STEP and SET_LIST on a channel that the requester holds (R91, R107 to R110). -/
def Obligations.OneChannelRequests : Prop :=
  ∀ (m : Master) (c : Ch) (channel : Byte) (s : State), channel.toNat = c.val → s.holder c = some m →
    let u := s.channel c
    (PassesHead (.clearFault m channel) m s →
      exec (.clearFault m channel) s =
        .next ((((s.endFrame m).setChannel c { u with faultLatch := false }).renewLeases m (onlyChannel c)).respond m 0x23
          (.ok [if u.faultLatch then 0x01 else 0x00]))) ∧
    (∀ (slot : Byte) (n : Fin 16) (target rate dwell : Word16) (flags : Byte), slot.toNat = n.val →
      PassesHead (.loadStep m channel slot target rate dwell flags) m s →
      let answers (status : Status) : Prop :=
        exec (.loadStep m channel slot target rate dwell flags) s =
          .next ((s.endFrame m).respond m 0x30 { status := status, results := [] })
      (u.list.active = true → answers .wrongState) ∧
      (u.list.active = false → ¬ (u.config.range.low ≤ target ∧ target ≤ u.config.range.high) → answers .limit) ∧
      (u.list.active = false → u.config.range.low ≤ target → target ≤ u.config.range.high →
        exec (.loadStep m channel slot target rate dwell flags) s =
          .next ((((s.endFrame m).setChannel c
              { u with slots := u.slots.set n (some (stepOf target rate dwell flags)) }).renewLeases m (onlyChannel c)).respond m
            0x30 (.ok [slot, u.list.code])))) ∧
    ∀ (count mode : Byte) (period : Word16) (onFault recordPasses : Byte),
      PassesHead (.setList m channel count mode period onFault recordPasses) m s →
      let loaded : Prop := ∀ n : Fin 16, n.val < count.toNat → u.slots[n] ≠ none
      (u.list.active = true ∨ ¬ loaded →
        exec (.setList m channel count mode period onFault recordPasses) s =
          .next ((s.endFrame m).respond m 0x31 { status := .wrongState, results := [] })) ∧
      (u.list.active = false → loaded →
        exec (.setList m channel count mode period onFault recordPasses) s =
          .next ((((s.endFrame m).setChannel c
              { u with
                descriptor := descriptorOf count mode period onFault recordPasses, list := .loaded }).renewLeases m
              (onlyChannel c)).respond m 0x31 (.ok [count])))

/-! ## Moves, checks, actions and orders -/

/-- MOVE_ADVANCE (R77): the code moves by the rate; at the target the move ends, with a check of its own origin when one is
required; a step's move tells the list (R114). Without an advance due, nothing changes (log 1). -/
def Obligations.MoveAdvanceOutcomes : Prop :=
  ∀ (c : Ch) (s : State), s.inReset = false →
    let u := s.channel c
    ((∀ mv, u.drive = .moving mv → mv.advanceDue = false) → exec (.moveAdvance c) s = .next s) ∧
    ∀ mv, u.drive = .moving mv → mv.advanceDue = true →
      let distance : Nat := if u.code ≤ mv.target then (mv.target - u.code).toNat else (u.code - mv.target).toNat
      let check (origin : CheckOrigin) : Drive :=
        .checking { origin := origin, attempt := 1, settleRemaining := u.config.policy.settleTime, previous := none }
      (mv.rate.toNat < distance →
        exec (.moveAdvance c) s =
          .next (s.setChannel c
            { u with
              code := if u.code ≤ mv.target then u.code + mv.rate else u.code - mv.rate
              drive := .moving { mv with advanceDue := false } })) ∧
      (distance ≤ mv.rate.toNat → mv.origin = .fallback ∨ mv.checkRequired = false → mv.origin ≠ .step →
        exec (.moveAdvance c) s = .next (s.setChannel c { u with code := mv.target, drive := .steady })) ∧
      (distance ≤ mv.rate.toNat → mv.origin = .write → mv.checkRequired = true →
        exec (.moveAdvance c) s = .next (s.setChannel c { u with code := mv.target, drive := check .write })) ∧
      (distance ≤ mv.rate.toNat → mv.origin = .step → ∀ r, u.list = .running r →
        exec (.moveAdvance c) s =
          .next (s.channelEvent c (fun _ =>
            ({ u with
              code := mv.target, drive := if mv.checkRequired then check .step else .steady
              list := .running { r with phase := if mv.checkRequired then .check else .hold } } : ChannelUnit).finish
                s.timeTag)))

/-- A move reaches its target after the distance divided by the rate, rounded up, advances, and not before (R77). -/
def Obligations.MoveTakesRoundedUpAdvances : Prop :=
  ∀ (code target rate : Word16) (n : Nat), rate ≠ 0 →
    ((fun now => advanceCode now target rate)^[n] code = target ↔
      (if code ≤ target then (target - code).toNat else (code - target).toNat) ≤ n * rate.toNat)

/-- SETTLE_EXPIRY of a check of origin WRITE, and of a passing check of a PAUSED list's step (R83 to R86, R93, R142); none while
settle remaining is above 0 (log 1). -/
def Obligations.SettleExpiryOutcomes : Prop :=
  ∀ (c : Ch) (raw : FaultSet) (ck : Check) (s : State), s.inReset = false → (s.channel c).drive = .checking ck →
    let u := s.channel c
    let v : Verdict := { raw := raw, counted := raw &&& u.config.policy.counted }
    let ended (outcome : CheckOutcome) : ChannelUnit :=
      { u with drive := .steady, lastCheck := some { attempts := ck.attempt, verdict := v, outcome := outcome } }
    (ck.settleRemaining ≠ 0 → exec (.settleExpiry c raw) s = .next s) ∧
    (ck.settleRemaining = 0 → v.counted ≠ 0 → ck.attempt ≤ u.config.policy.retryLimit →
      exec (.settleExpiry c raw) s =
        .next (s.setChannel c
          { u with
            activeStage :=
              match (if ck.attempt = 1 then u.config.policy.retry1 else u.config.policy.retry2), u.activeStage with
              | .same, stage => stage
              | .alternate, .a => .b
              | .alternate, .b => .a
            drive := .checking
              { origin := ck.origin, attempt := ck.attempt + 1, settleRemaining := u.config.policy.settleTime
                previous := some v } })) ∧
    (ck.settleRemaining = 0 → v.counted = 0 → ck.origin = .write → ck.previous = none →
      exec (.settleExpiry c raw) s = .next (s.setChannel c (ended .passed))) ∧
    (ck.settleRemaining = 0 → v.counted = 0 → ck.origin = .write → ∀ before m, ck.previous = some before →
      s.holder c = some m →
      exec (.settleExpiry c raw) s =
        .next ((s.setChannel c (ended .passed)).append
          (.channel m c (.checkRecovered ck.attempt before u.activeStage u.code none)))) ∧
    (ck.settleRemaining = 0 → v.counted ≠ 0 → u.config.policy.retryLimit < ck.attempt → ck.origin = .write →
      ∀ m, s.holder c = some m →
      exec (.settleExpiry c raw) s =
        .next (((s.setChannel c
          (({ ended .failed with faultLatch := true } : ChannelUnit).applyAction u.config.policy.faultAction)).append
            (.channel m c (.checkFailed ck.attempt v u.activeStage u.code none))).raise m .fault)) ∧
    (ck.settleRemaining = 0 → v.counted = 0 → ck.origin = .step → ck.previous = none → ∀ r, u.list = .paused r →
      exec (.settleExpiry c raw) s =
        .next (s.setChannel c { ended .passed with list := .paused { r with phase := .hold } }))

/-- The end of a step's check on a RUNNING or PAUSED list (R84, R86, R115, R133 to R136): a pass brings the step to HOLD; a failure
stops the list at once, leaves a FAULT stop pending, or goes on, as the on-fault field says. -/
def Obligations.StepCheckOutcomes : Prop :=
  ∀ (c : Ch) (raw : FaultSet) (ck : Check) (r : Runtime) (paused : Bool) (m : Master) (s : State), s.inReset = false →
    (s.channel c).drive = .checking ck → ck.settleRemaining = 0 → ck.origin = .step → s.holder c = some m →
    (s.channel c).list = (if paused then .paused r else .running r) →
    let u := s.channel c
    let v : Verdict := { raw := raw, counted := raw &&& u.config.policy.counted }
    let ended (outcome : CheckOutcome) (latch : Bool) (list : ListState) : ChannelUnit :=
      { u with
        drive := .steady, faultLatch := latch, list := list
        lastCheck := some { attempts := ck.attempt, verdict := v, outcome := outcome } }
    let held (stop : Option StopReason) : ListState :=
      if paused then .paused { r with phase := .hold, pendingStop := stop }
      else .running { r with phase := .hold, pendingStop := stop }
    let failed : ChannelRecord := .checkFailed ck.attempt v u.activeStage u.code (some (r.index, r.passCount))
    (v.counted = 0 → ∀ before, ck.previous = some before →
      exec (.settleExpiry c raw) s =
        .next (s.channelEvent c (fun _ =>
          let rest := (ended .passed u.faultLatch (held r.pendingStop)).finish s.timeTag
          (rest.1,
            [.record (.checkRecovered ck.attempt before u.activeStage u.code (some (r.index, r.passCount)))] ++ rest.2)))) ∧
    (v.counted = 0 → ck.previous = none →
      exec (.settleExpiry c raw) s =
        .next (s.channelEvent c (fun _ => (ended .passed u.faultLatch (held r.pendingStop)).finish s.timeTag))) ∧
    (v.counted ≠ 0 → u.config.policy.retryLimit < ck.attempt →
      (u.descriptor.onFault = .stop →
        exec (.settleExpiry c raw) s =
          .next (((((s.setChannel c ((ended .failed true .loaded).applyAction u.config.policy.faultAction)).append
            (.channel m c failed)).raise m .fault).append
              (.channel m c (.listStopped .fault (some r.passCount) (some r.index)))).raise m .list)) ∧
      (u.descriptor.onFault ≠ .stop →
        exec (.settleExpiry c raw) s =
          .next (s.channelEvent c (fun _ =>
            let stop := if u.descriptor.onFault = .finishPass then some .fault else r.pendingStop
            let rest := (ended .failed true (held stop)).finish s.timeTag
            (rest.1, [.record failed, .notice .fault] ++ rest.2)))))

/-- The orders a channel unit carries out (R95, R96) and its actions on a steady drive (R92, R94), with all they leave as it is. -/
def Obligations.OrdersAndActions : Prop :=
  ∀ u : ChannelUnit,
    let list := if u.list.active then .loaded else u.list
    let range := u.config.range
    let ramp : Drive :=
      .moving
        { target := range.fallback, rate := range.maxRate, origin := .fallback, checkRequired := false, advanceDue := false }
    u.releaseOrder .hold = { u with list := list, drive := .steady } ∧
    u.releaseOrder .fallback = u.revokeOrder ∧
    (u.config.policy.revokeAction = .hold → u.revokeOrder = { u with list := list, drive := .steady }) ∧
    (u.config.policy.revokeAction = .fallback →
      u.revokeOrder = { u with list := list, code := range.fallback, drive := .steady }) ∧
    (u.config.policy.revokeAction = .rampFallback → range.maxRate = 0 ∨ range.fallback = u.code →
      u.revokeOrder = { u with list := list, code := range.fallback, drive := .steady }) ∧
    (u.config.policy.revokeAction = .rampFallback → range.maxRate ≠ 0 → range.fallback ≠ u.code →
      u.revokeOrder = { u with list := list, drive := ramp }) ∧
    (u.drive = .steady →
      u.applyAction .hold = u ∧ u.applyAction .fallback = { u with code := range.fallback } ∧
      (range.maxRate = 0 ∨ range.fallback = u.code → u.applyAction .rampFallback = { u with code := range.fallback }) ∧
      (range.maxRate ≠ 0 → range.fallback ≠ u.code → u.applyAction .rampFallback = { u with drive := ramp }))

/-! ## Lists -/

/-- The start of a step (R113, R114, R117): its timers, its seen flags, the edge mark it counts, its move, and the run phase. -/
def Obligations.StepStart : Prop :=
  ∀ (tag : Word32) (r : Runtime) (st : StepRecord) (u : ChannelUnit), u.slots[r.index] = some st →
    let effective := effectiveRate st.rate u.config.range.maxRate
    let seen0 : Prop := st.hold = .trg0 ∧ u.mark0 = some tag
    let seen1 : Prop := st.hold = .trg1 ∧ u.mark1 = some tag
    let started (code : Word16) (drive : Drive) (phase : RunPhase) : ChannelUnit :=
      { u with
        code := code, drive := drive
        mark0 := if seen0 then none else u.mark0, mark1 := if seen1 then none else u.mark1
        list := .running
          { r with
            phase := phase, dwellTimer := if st.dwell = 0 then none else some st.dwell
            triggerSeen := decide (seen0 ∨ seen1), proceedSeen := false } }
    (effective ≠ 0 → st.target ≠ u.code →
      u.startStep tag r =
        started u.code
          (.moving
            { target := st.target, rate := effective, origin := .step, checkRequired := st.check, advanceDue := false })
          .move) ∧
    (effective = 0 ∨ st.target = u.code → st.check = false → u.startStep tag r = started st.target .steady .hold) ∧
    (effective = 0 ∨ st.target = u.code → st.check = true →
      u.startStep tag r =
        started st.target
          (.checking
            { origin := .step, attempt := 1, settleRemaining := u.config.policy.settleTime, previous := none }) .check)

/-- The end of a step and of a pass (R119, R120, R129 to R131): STEP_DONE if asked for, then the next step, the end of the list, or
the gap before the next pass. -/
def Obligations.StepAndPassEnd : Prop :=
  ∀ (tag : Word32) (r : Runtime) (st : StepRecord) (u : ChannelUnit),
    (u.endingStep = some (r, st) ↔
      u.list = .running r ∧ u.slots[r.index] = some st ∧ r.phase = .hold ∧ r.dwellTimer = none ∧
        (st.hold = .none ∨ (st.hold = .trg0 ∨ st.hold = .trg1) ∧ r.triggerSeen = true ∨
          st.hold = .proceed ∧ r.proceedSeen = true)) ∧
    (u.endingStep = none → u.finish tag = (u, [])) ∧
    (u.endingStep = some (r, st) →
      u.finish tag =
        (((u.endStep tag r st).1.endSteps tag 31).1,
          (u.endStep tag r st).2 ++ ((u.endStep tag r st).1.endSteps tag 31).2)) ∧
    let done : List ChannelEffect :=
      if st.record = true then
        [.record (.stepDone r.index r.passCount u.code
          (if st.check = true then u.lastCheck.map (fun k => (k.attempts, k.verdict)) else none))]
      else []
    (∀ next : Fin 16, next.val = r.index.val + 1 → next.val < u.descriptor.count.toNat →
      u.endStep tag r st = (u.startStep tag { r with index := next }, done)) ∧
    (u.descriptor.count.toNat ≤ r.index.val + 1 →
      let loaded : ChannelUnit := { u with list := .loaded }
      (u.descriptor.mode = .single → r.pendingStop = none →
        u.endStep tag r st = (loaded, done ++ [.record (.listEnd r.passCount), .notice .list])) ∧
      (r.pendingStop = some .request →
        u.endStep tag r st =
          (loaded, done ++ [.record (.listStopped .request (some r.passCount) none), .notice .list])) ∧
      (r.pendingStop = some .fault →
        u.endStep tag r st =
          (loaded.applyAction u.config.policy.faultAction,
            done ++ [.record (.listStopped .fault (some r.passCount) none), .notice .list])) ∧
      (u.descriptor.mode = .cyclic → r.pendingStop = none →
        let duration : Nat := (tag - r.passStart).toNat
        let overrun : Bool := decide (0 < u.descriptor.period.toNat ∧ u.descriptor.period.toNat < duration)
        let passDone : List ChannelEffect :=
          if u.descriptor.recordPasses = true then [.record (.passDone r.passCount overrun)] else []
        let next : Runtime := { r with passCount := if r.passCount = 65535 then 65535 else r.passCount + 1, index := 0 }
        let gap : Nat := max u.descriptor.period.toNat 1 - duration
        (gap = 0 → u.endStep tag r st = (u.startStep tag { next with passStart := tag }, done ++ passDone)) ∧
        (gap ≠ 0 →
          u.endStep tag r st =
            ({ u with list := .running { next with phase := .gap (BitVec.ofNat 16 gap) } }, done ++ passDone))))

/-- START over a set that the requester holds (R124 to R126): refused whole by a latch or by a list or drive, or taken by every
channel of the set, in ascending order. -/
def Obligations.StartOutcomes : Prop :=
  ∀ (m : Master) (set : Word16) (source : Byte) (s : State), PassesHead (.start m set source) m s →
    (∀ c : Ch, set.getLsbD c.val = true → s.holder c = some m) →
    let answers (status : Status) : Prop :=
      exec (.start m set source) s = .next ((s.endFrame m).respond m 0x32 { status := status, results := [] })
    let latched : Prop := ∃ c : Ch, set.getLsbD c.val = true ∧ (s.channel c).faultLatch = true
    let ready : Prop := ∀ c : Ch, set.getLsbD c.val = true → (s.channel c).list = .loaded ∧ (s.channel c).drive = .steady
    let armed (l : Line) : Prop :=
      exec (.start m set source) s =
        .next ((((s.endFrame m).orderAll (channelSetOf set) (fun u => { u with list := .armed l })).renewLeases m (channelSetOf set)).respond
          m 0x32 (.ok (bytes16 set ++ [0x02])))
    (latched → answers .faulted) ∧ (¬ latched → ¬ ready → answers .wrongState) ∧
    (¬ latched → ready →
      (source = 0 →
        exec (.start m set source) s =
          .next ((((s.endFrame m).channelEvents (channelsOf (channelSetOf set)) (fun u =>
              (u.startStep s.timeTag
                { index := 0, passCount := 0, phase := .move, dwellTimer := none, triggerSeen := false
                  proceedSeen := false, passStart := s.timeTag, pendingStop := none }).finish s.timeTag)).renewLeases m
              (channelSetOf set)).respond m 0x32 (.ok (bytes16 set ++ [0x03])))) ∧
      (source = 1 → armed .trg0) ∧ (source = 2 → armed .trg1))

/-- STOP over a set that the requester holds (R137 to R139), and what it does to each list. -/
def Obligations.StopOutcomes : Prop :=
  (∀ (m : Master) (set : Word16) (mode : Byte) (s : State), PassesHead (.stop m set mode) m s →
    (∀ c : Ch, set.getLsbD c.val = true → s.holder c = some m) →
    let active : Prop := ∀ c : Ch, set.getLsbD c.val = true → (s.channel c).list.active = true
    let stopped (f : ChannelUnit → Progress) : State :=
      ((s.endFrame m).channelEvents (channelsOf (channelSetOf set)) f).renewLeases m (channelSetOf set)
    (¬ active →
      exec (.stop m set mode) s = .next ((s.endFrame m).respond m 0x33 { status := .wrongState, results := [] })) ∧
    (active → mode = 0 →
      exec (.stop m set mode) s =
        .next ((stopped ChannelUnit.stopNow).respond m 0x33 (.ok (bytes16 set ++ [0x00, 0x00, 0x00, 0x00])))) ∧
    (active → mode = 1 →
      ∃ running paused : ChannelSet,
        exec (.stop m set mode) s =
          .next ((stopped ChannelUnit.stopAtPassEnd).respond m 0x33
            (.ok (bytes16 set ++ setBytes running ++ setBytes paused))) ∧
        ∀ c : Ch,
          (running.getLsbD c.val = true ↔
            set.getLsbD c.val = true ∧ ∃ r, (s.channel c).list = .running r ∧ ∀ g, r.phase ≠ .gap g) ∧
          (paused.getLsbD c.val = true ↔
            set.getLsbD c.val = true ∧ ∃ r, (s.channel c).list = .paused r ∧ ∀ g, r.phase ≠ .gap g))) ∧
  ∀ (u : ChannelUnit),
    let stopped : ChannelUnit := { u with drive := .steady, list := .loaded }
    (∀ l, u.list = .armed l →
      u.stopNow = ({ u with list := .loaded }, [.record (.listStopped .request none none), .notice .list]) ∧
      u.stopAtPassEnd = u.stopNow) ∧
    ∀ r, u.list = .running r ∨ u.list = .paused r →
      let index : Option (Fin 16) :=
        match r.phase with
        | .gap _ => none
        | .move | .check | .hold => some r.index
      (r.pendingStop ≠ some .fault →
        u.stopNow = (stopped, [.record (.listStopped .request (some r.passCount) index), .notice .list])) ∧
      (r.pendingStop = some .fault →
        u.stopNow =
          (stopped.applyAction u.config.policy.faultAction,
            [.record (.listStopped .fault (some r.passCount) index), .notice .list])) ∧
      ((∃ g, r.phase = .gap g) → u.stopAtPassEnd = u.stopNow) ∧
      ((∀ g, r.phase ≠ .gap g) →
        let kept : Runtime := { r with pendingStop := if r.pendingStop = none then some .request else r.pendingStop }
        (u.list = .running r → u.stopAtPassEnd = ({ u with list := .running kept }, [])) ∧
        (u.list = .paused r → u.stopAtPassEnd = ({ u with list := .paused kept }, [])))

/-- PAUSE over a set that the requester holds (R141), and what it does to each list; a dwell frozen at 0 is met (R145). -/
def Obligations.PauseOutcomes : Prop :=
  (∀ (m : Master) (set : Word16) (s : State), PassesHead (.pause m set) m s →
    (∀ c : Ch, set.getLsbD c.val = true → s.holder c = some m) →
    let running : Prop := ∀ c : Ch, set.getLsbD c.val = true → ∃ r, (s.channel c).list = .running r
    (¬ running → exec (.pause m set) s = .next ((s.endFrame m).respond m 0x34 { status := .wrongState, results := [] })) ∧
    (running →
      exec (.pause m set) s =
        .next ((((s.endFrame m).channelEvents (channelsOf (channelSetOf set)) ChannelUnit.pause).renewLeases m (channelSetOf set)).respond m
          0x34 (.ok (bytes16 set))))) ∧
  ∀ (u : ChannelUnit) (r : Runtime), u.list = .running r →
    let list : ListState := .paused { r with dwellTimer := if r.dwellTimer = some 0 then none else r.dwellTimer }
    (r.phase = .move → (∃ mv, u.drive = .moving mv) → u.pause = ({ u with drive := .steady, list := list }, [])) ∧
    (r.phase ≠ .move → u.pause = ({ u with list := list }, []))

/-- RESUME over a set that the requester holds (R143, R144), and what each mode does to a list by its run phase. -/
def Obligations.ResumeOutcomes : Prop :=
  (∀ (m : Master) (set : Word16) (mode : Byte) (s : State), PassesHead (.resume m set mode) m s →
    (∀ c : Ch, set.getLsbD c.val = true → s.holder c = some m) →
    let paused : Prop := ∀ c : Ch, set.getLsbD c.val = true → ∃ r, (s.channel c).list = .paused r
    let resumed (f : ChannelUnit → Progress) : Prop :=
      exec (.resume m set mode) s =
        .next ((((s.endFrame m).channelEvents (channelsOf (channelSetOf set)) f).renewLeases m (channelSetOf set)).respond m 0x35
          (.ok (bytes16 set)))
    (¬ paused →
      exec (.resume m set mode) s = .next ((s.endFrame m).respond m 0x35 { status := .wrongState, results := [] })) ∧
    (paused → mode = 0 → resumed (ChannelUnit.resumeContinue s.timeTag)) ∧
    (paused → mode = 1 → resumed (ChannelUnit.resumeRepeat s.timeTag))) ∧
  ∀ (tag : Word32) (u : ChannelUnit) (r : Runtime) (st : StepRecord), u.list = .paused r → u.slots[r.index] = some st →
    let effective := effectiveRate st.rate u.config.range.maxRate
    (r.phase = .move → effective ≠ 0 → st.target ≠ u.code →
      u.resumeContinue tag =
        ({ u with
          list := .running r
          drive := .moving
            { target := st.target, rate := effective, origin := .step, checkRequired := st.check, advanceDue := false } },
          [])) ∧
    (r.phase = .move → effective = 0 ∨ st.target = u.code →
      u.resumeContinue tag =
        ({ u with
          code := st.target
          drive :=
            if st.check = true then
              .checking { origin := .step, attempt := 1, settleRemaining := u.config.policy.settleTime, previous := none }
            else .steady
          list := .running { r with phase := if st.check = true then .check else .hold } } : ChannelUnit).finish tag) ∧
    (r.phase = .check → u.resumeContinue tag = ({ u with list := .running r }, [])) ∧
    (r.phase = .hold → u.resumeContinue tag = ({ u with list := .running r } : ChannelUnit).finish tag) ∧
    (∀ g, r.phase = .gap g → g ≠ 0 → u.resumeContinue tag = ({ u with list := .running r }, [])) ∧
    (r.phase = .gap 0 →
      u.resumeContinue tag = (u.startStep tag { r with passStart := tag, index := 0 }).finish tag) ∧
    ((∀ g, r.phase ≠ .gap g) → u.resumeRepeat tag = (u.startStep tag r).finish tag) ∧
    (∀ g, r.phase = .gap g → u.resumeRepeat tag = u.resumeContinue tag)

/-- PROCEED over a set that the requester holds (R118, R146): it reaches the channels whose current step holds on PROCEED and has
not seen one, and the answer names them. -/
def Obligations.ProceedOutcomes : Prop :=
  ∀ (m : Master) (set : Word16) (s : State), PassesHead (.proceed m set) m s →
    (∀ c : Ch, set.getLsbD c.val = true → s.holder c = some m) →
    let waits (u : ChannelUnit) (r : Runtime) : Prop :=
      u.list = .running r ∧ (∀ g, r.phase ≠ .gap g) ∧ r.proceedSeen = false ∧
        ∃ st, u.slots[r.index] = some st ∧ st.hold = .proceed
    (∃ reached : ChannelSet,
      exec (.proceed m set) s =
        .next ((((s.endFrame m).channelEvents (channelsOf (channelSetOf set)) (ChannelUnit.proceed s.timeTag)).renewLeases m
          (channelSetOf set)).respond m 0x36 (.ok (setBytes reached))) ∧
      ∀ c : Ch, reached.getLsbD c.val = true ↔ set.getLsbD c.val = true ∧ ∃ r, waits (s.channel c) r) ∧
    ∀ u : ChannelUnit,
      (∀ r, waits u r →
        u.proceed s.timeTag = ({ u with list := .running { r with proceedSeen := true } } : ChannelUnit).finish s.timeTag) ∧
      ((∀ r, ¬ waits u r) → u.proceed s.timeTag = (u, []))

/-- DWELL_EXPIRY and GAP_EXPIRY (R116, R119, R132): the dwell is met, and a step that has all else ends; the next pass begins. Neither
occurs when it is not due (log 1). -/
def Obligations.DwellAndGapExpiries : Prop :=
  ∀ (c : Ch) (s : State), s.inReset = false →
    let u := s.channel c
    (∀ r, u.list = .running r → r.dwellTimer = some 0 →
      let met : ChannelUnit := { u with list := .running { r with dwellTimer := none } }
      (met.endingStep = none → exec (.dwellExpiry c) s = .next (s.setChannel c met)) ∧
      exec (.dwellExpiry c) s = .next (s.channelEvent c (fun _ => met.finish s.timeTag))) ∧
    ((∀ r, u.list = .running r → r.dwellTimer ≠ some 0) → exec (.dwellExpiry c) s = .next s) ∧
    (∀ r, u.list = .running r → r.phase = .gap 0 →
      exec (.gapExpiry c) s =
        .next (s.channelEvent c (fun _ =>
          (u.startStep s.timeTag { r with passStart := s.timeTag, index := 0 }).finish s.timeTag))) ∧
    ((∀ r, u.list = .running r → r.phase ≠ .gap 0) → exec (.gapExpiry c) s = .next s)

/-- TRIGGER_TRANSITION (R184): the level follows a transition, and one that matches the edge selection reaches all twelve channel
units as one trigger edge event; each uses it or marks it (R117, R127). -/
def Obligations.TriggerTransitionOutcomes : Prop :=
  (∀ (l : Line) (level : Level) (heldNs : Nat) (s : State), s.inReset = false →
    let moved : State := s.setLine l { selection := (s.line l).selection, level := level }
    let selected : Prop :=
      (s.line l).selection = .both ∨ ((s.line l).selection = .rising ∧ level = .high) ∨
        ((s.line l).selection = .falling ∧ level = .low)
    (heldNs < 2000 ∨ level = (s.line l).level → exec (.triggerTransition l level heldNs) s = .next s) ∧
    (2000 ≤ heldNs → level ≠ (s.line l).level → ¬ selected → exec (.triggerTransition l level heldNs) s = .next moved) ∧
    (2000 ≤ heldNs → level ≠ (s.line l).level → selected →
      exec (.triggerTransition l level heldNs) s =
        .next (moved.channelEvents [0, 1, 2, 3, 4, 5, 6, 7, 8, 9, 10, 11] (ChannelUnit.edge s.timeTag l)))) ∧
  ∀ (l : Line) (tag : Word32) (u : ChannelUnit),
    let uses (r : Runtime) : Prop :=
      u.list = .running r ∧ (∀ g, r.phase ≠ .gap g) ∧ r.triggerSeen = false ∧
        ∃ st, u.slots[r.index] = some st ∧ st.hold.line = some l
    (u.list = .armed l →
      u.edge tag l =
        (u.startStep tag
          { index := 0, passCount := 0, phase := .move, dwellTimer := none, triggerSeen := false, proceedSeen := false
            passStart := tag, pendingStop := none }).finish tag) ∧
    (∀ r, uses r →
      u.edge tag l = ({ u with list := .running { r with triggerSeen := true } } : ChannelUnit).finish tag) ∧
    (u.list ≠ .armed l → (∀ r, ¬ uses r) →
      u.edge tag l =
        (match l with
          | .trg0 => { u with mark0 := some tag }
          | .trg1 => { u with mark1 := some tag }, []))

/-! ## Log -/

/-- An append (R151, R152, R154): the place of the record, the readers carried forward, and the threshold comparison for each
master; nothing else changes. -/
def Obligations.AppendRecord : Prop :=
  ∀ (s : State) (b : RecordBody), LogLaw s →
    let t := s.append b
    let full : Prop := s.log.records.length = 64
    let oldest : Word16 := s.log.nextSeq - 64
    (t = { s with log := t.log, notices := t.notices }) ∧
    t.log.nextSeq = s.log.nextSeq + 1 ∧
    (¬ full → t.log.records = s.log.records ++ [{ seq := s.log.nextSeq, tag := s.timeTag, body := b }]) ∧
    (full → t.log.records = s.log.records.drop 1 ++ [{ seq := s.log.nextSeq, tag := s.timeTag, body := b }]) ∧
    ∀ m,
      (full → (s.log.readers.get m).cursor = oldest →
        t.log.readers.get m = { s.log.readers.get m with cursor := oldest + 1, gap := true }) ∧
      (¬ full ∨ (s.log.readers.get m).cursor ≠ oldest → t.log.readers.get m = s.log.readers.get m) ∧
      ((s.log.readers.get m).threshold ≠ 0 →
        (s.log.readers.get m).threshold.toNat ≤ (t.log.nextSeq - (t.log.readers.get m).cursor).toNat →
        t.notice m = (s.notice m).raise .log) ∧
      ((s.log.readers.get m).threshold = 0 ∨
        (t.log.nextSeq - (t.log.readers.get m).cursor).toNat < (s.log.readers.get m).threshold.toNat →
        t.notice m = s.notice m)

/-- READ_LOG (R155, R194) and SET_LOG_THRESHOLD (R158); and the bytes of a record of each kind, from byte 4 of the log readout on,
field by field (R194). -/
def Obligations.LogRequests : Prop :=
  (∀ (seq : Word16) (tag : Word32) (m : Master),
    let row (body : RecordBody) : List Byte := ({ seq := seq, tag := tag, body := body } : LogRecord).bytes
    let head (kind : Byte) : List Byte := bytes16 seq ++ bytes32 tag ++ [kind, m.code]
    (∀ (number : Byte) (set : ChannelSet) (heir : Master),
      let claim (kind reason target : Byte) : List Byte := head kind ++ [number] ++ setBytes set ++ [reason, target]
      row (.claim m number set .granted) = claim 0x01 0x00 0xFF ∧
      row (.claim m number set (.refused .timeout)) = claim 0x02 0x01 0xFF ∧
      row (.claim m number set (.refused .digest)) = claim 0x02 0x02 0xFF ∧
      row (.claim m number set (.released .hold)) = claim 0x03 0x05 0xFF ∧
      row (.claim m number set (.released .fallback)) = claim 0x03 0x06 0xFF ∧
      row (.claim m number set .leaseExpired) = claim 0x04 0x00 0xFF ∧
      row (.claim m number set (.handoffDone heir)) = claim 0x05 0x00 heir.code) ∧
    (∀ (c : Ch) (index : Fin 16) (pass code digest : Word16) (attempts : Byte) (v : Verdict) (stage : Stage),
      let channel (kind presence index : Byte) (pass : Word16) (check : List Byte) (detail : Byte) (value : Word16) : List Byte :=
        head kind ++ [BitVec.ofNat 8 c.val, presence, index] ++ bytes16 pass ++ check ++ [detail] ++ bytes16 value
      let step : Byte := BitVec.ofNat 8 index.val
      let unchecked : List Byte := [0x00, 0x00, 0x00]
      let checked : List Byte := [attempts, v.raw.setWidth 8, v.counted.setWidth 8]
      row (.channel m c (.configChanged digest)) = channel 0x06 0x10 0x00 0 unchecked 0x00 digest ∧
      row (.channel m c (.stepDone index pass code none)) = channel 0x07 0x13 step pass unchecked 0x00 code ∧
      row (.channel m c (.stepDone index pass code (some (attempts, v)))) = channel 0x07 0x17 step pass checked 0x00 code ∧
      row (.channel m c (.passDone pass false)) = channel 0x08 0x0A 0x00 pass unchecked 0x00 0 ∧
      row (.channel m c (.passDone pass true)) = channel 0x08 0x0A 0x00 pass unchecked 0x01 0 ∧
      row (.channel m c (.listEnd pass)) = channel 0x09 0x02 0x00 pass unchecked 0x00 0 ∧
      (∀ reason : StopReason,
        let why : Byte := if reason = .request then 0x03 else 0x04
        row (.channel m c (.listStopped reason (some pass) (some index))) = channel 0x0A 0x0B step pass unchecked why 0 ∧
        row (.channel m c (.listStopped reason (some pass) none)) = channel 0x0A 0x0A 0x00 pass unchecked why 0 ∧
        row (.channel m c (.listStopped reason none none)) = channel 0x0A 0x08 0x00 0 unchecked why 0) ∧
      row (.channel m c (.checkFailed attempts v stage code (some (index, pass)))) =
        channel 0x0B 0x1F step pass checked stage.code code ∧
      row (.channel m c (.checkFailed attempts v stage code none)) = channel 0x0B 0x1C 0x00 0 checked stage.code code ∧
      row (.channel m c (.checkRecovered attempts v stage code (some (index, pass)))) =
        channel 0x0C 0x1F step pass checked stage.code code ∧
      row (.channel m c (.checkRecovered attempts v stage code none)) = channel 0x0C 0x1C 0x00 0 checked stage.code code) ∧
    row (.softReset m) = head 0x0D) ∧
  ∀ (m : Master) (s : State),
    let before := s.log.readers.get m
    let unread : Nat := (s.log.nextSeq - before.cursor).toNat
    let gapBit : Byte := if before.gap = true then 0x02 else 0x00
    (∀ mode : Byte, s.frameEnd m = some (.readLog m mode) → mode.toNat ≤ 1 →
      (unread = 0 →
        exec (.readLog m mode) s =
          .next (((s.endFrame m).setReader m { before with gap := false }).respond m 0x40 (.ok [gapBit, 0x00]))) ∧
      (LogLaw s → unread ≠ 0 →
        ∃ k ∈ s.log.records, k.seq = before.cursor ∧
          (mode = 0 →
            exec (.readLog m mode) s =
              .next (((s.endFrame m).setReader m { before with cursor := before.cursor + 1, gap := false }).respond m 0x40
                (.ok ([0x01 ||| gapBit, BitVec.ofNat 8 (unread - 1)] ++ k.bytes)))) ∧
          (mode = 1 →
            exec (.readLog m mode) s =
              .next (((s.endFrame m).setReader m { before with gap := false }).respond m 0x40
                (.ok ([0x01 ||| gapBit, BitVec.ofNat 8 unread] ++ k.bytes)))))) ∧
    ∀ threshold : Byte, s.frameEnd m = some (.setLogThreshold m threshold) → threshold.toNat ≤ 64 →
      exec (.setLogThreshold m threshold) s =
        .next (((s.endFrame m).setReader m { before with threshold := threshold }).respond m 0x41
          (.ok [BitVec.ofNat 8 unread]))

/-! ## Device -/

/-- SET_TRIGGERS (R185) and RESET_DEVICE (R30, R71, R100, R123, R160, R169, R180, R187) from the holder of all twelve channels. -/
def Obligations.DeviceRequests : Prop :=
  ∀ (m : Master) (s : State), (∀ c : Ch, s.holder c = some m) →
    (∀ (edge0 edge1 : Byte) (sel0 sel1 : EdgeSelection), sel0.code = edge0 → sel1.code = edge1 →
      PassesHead (.setTriggers m edge0 edge1) m s →
      exec (.setTriggers m edge0 edge1) s =
        .next (({ s.endFrame m with
            trg0 := { s.trg0 with selection := sel0 }, trg1 := { s.trg1 with selection := sel1 } } : State).respond m 0x63
          (.ok [s.trg0.selection.code, s.trg1.selection.code, edge0, edge1]))) ∧
    (PassesHead (.resetDevice m) m s →
      ∃ t, exec (.resetDevice m) s = .next t ∧ t.pending = s.pending ∧ t.inReset = s.inReset ∧ t.timeTag = s.timeTag ∧
        t.trg0 = s.trg0 ∧ t.trg1 = s.trg1 ∧ (∀ p, t.entry p = none) ∧ t.claims.order = [] ∧
        t.claims.nextNumber = s.claims.nextNumber ∧ (∀ n, t.barred n = false) ∧
        (∀ c, t.channel c =
          { s.channel c with
            drive := .steady, faultLatch := false, lastCheck := none, mark0 := none, mark1 := none
            list := if (s.channel c).list = .empty then .empty else .loaded }) ∧
        t.log.records = [{ seq := 0, tag := s.timeTag, body := .softReset m }] ∧ t.log.nextSeq = 1 ∧
        (∀ n, t.log.readers.get n = { cursor := 0, threshold := (s.log.readers.get n).threshold, gap := false }) ∧
        (∀ n, t.notice n = { pending := 0, mask := (s.notice n).mask, handoff := none, line := false }) ∧
        t.port m = { s.port m with inProgress := false, response := sealFrame [0x64, 0x00], capture := none } ∧
        ∀ n, n ≠ m → t.port n = { s.port n with response := sealFrame [0x00, 0x0F], capture := none })

/-- TIME_TAG_ADVANCE (R181): the tag is one higher and every running timer has one millisecond less; while an expiry or an advance of
this millisecond is still to be taken, the millisecond does not end (R182, log 4). No other command changes the tag. -/
def Obligations.TimeTagAdvanceOutcomes : Prop :=
  (∀ s : State, s.inReset = false → s.anyDue = true → exec .timeTagAdvance s = .next s) ∧
  (∀ s : State, s.inReset = false → s.anyDue = false →
    ∃ t, exec .timeTagAdvance s = .next t ∧ t = { s with timeTag := s.timeTag + 1, claims := t.claims, channels := t.channels } ∧
      t.claims = { s.claims with entries := t.claims.entries } ∧
      (∀ p, s.entry p = none → t.entry p = none) ∧
      (∀ p e, s.entry p = some e → ∃ state, t.entry p = some { e with state := state } ∧
        (∀ expected, e.state = .pending none expected → state = e.state) ∧
        (∀ w expected, e.state = .pending (some w) expected →
          state = .pending (some { w with remaining := w.remaining - 1 }) expected) ∧
        (∀ lease tag, e.state = .held lease tag → state = .held (lease - 1) tag) ∧
        ∀ lease tag target remaining, e.state = .offered lease tag target remaining →
          state = .offered (lease - 1) tag target (remaining - 1)) ∧
      ∀ c,
        let u := s.channel c
        t.channel c = { u with drive := (t.channel c).drive, list := (t.channel c).list } ∧
        (u.drive = .steady → (t.channel c).drive = .steady) ∧
        (∀ mv, u.drive = .moving mv → (t.channel c).drive = .moving { mv with advanceDue := true }) ∧
        (∀ ck, u.drive = .checking ck →
          (t.channel c).drive = .checking { ck with settleRemaining := ck.settleRemaining - 1 }) ∧
        ((∀ r, u.list ≠ .running r) → (t.channel c).list = u.list) ∧
        ∀ r, u.list = .running r → (t.channel c).list = .running
          { r with
            dwellTimer := r.dwellTimer.map (fun d => d - 1)
            phase :=
              match r.phase with
              | .gap g => .gap (g - 1)
              | .move => .move
              | .check => .check
              | .hold => .hold }) ∧
  ∀ (i : Instr) (s t : State), i ≠ .timeTagAdvance → (∀ source, i ≠ .fullReset source) →
    (∀ level0 level1, i ≠ .fullResetEnd level0 level1) → exec i s = .next t → t.timeTag = s.timeTag

/-! ## What every step keeps -/

/-- Each line is asserted exactly when a potent notice is pending (R164), and no mask holds REVOKED (R190). -/
def Obligations.LineLawKept : Prop :=
  ∀ s t : State, LineLaw s → MaskLaw s → step s = .next t → LineLaw t ∧ MaskLaw t

/-- A master is BARRED exactly when its REVOKED notice is pending (R37, R163). -/
def Obligations.RevokeLawKept : Prop := ∀ s t : State, RevokeLaw s → step s = .next t → RevokeLaw t

/-- The ring of the log and every cursor keep their law (R148, R153). -/
def Obligations.LogLawKept : Prop := ∀ s t : State, LogLaw s → step s = .next t → LogLaw t

/-- The claim table keeps its laws (R1, R2, R3, R5, R6). -/
def Obligations.ClaimTableLawKept : Prop := ∀ s t : State, ClaimTableLaw s → step s = .next t → ClaimTableLaw t

/-- After every step no waiting claim is grantable (R11, R12). -/
def Obligations.NoneGrantableKept : Prop :=
  ∀ s t : State, ClaimTableLaw s → NoneGrantable s → step s = .next t → NoneGrantable t

/-- Every output code, fallback code, step target and move target stays within its channel's range (R56). -/
def Obligations.RangeLawKept : Prop :=
  ∀ s t : State, AllChannels RangeLaw s → step s = .next t → AllChannels RangeLaw t

/-- Every digest is the CRC of its record, and every check stays within its attempts (R66, R85). -/
def Obligations.ConfigAndCheckLawsKept : Prop :=
  ∀ s t : State, AllChannels ConfigLaw s → AllChannels CheckLaw s → step s = .next t →
    AllChannels ConfigLaw t ∧ AllChannels CheckLaw t

/-- Every list keeps R103, stands in the phase its drive is in (R106), and leaves no step that has met its end conditions (R119). -/
def Obligations.CourseLawKept : Prop :=
  ∀ s t : State, AllChannels CourseLaw s → step s = .next t → AllChannels CourseLaw t

/-- A channel that nobody holds is never CHECKING, runs no list, and moves at most to its fallback code (R97, R104). -/
def Obligations.FreeLawKept : Prop := ∀ s t : State, FreeLaw s → step s = .next t → FreeLaw t

/-- Every port holds whole frames to shift out (R170, R172, R173). The second clause is the model's own choice and no rule of the
spec: a part that is held in full reset already stands at the values it has when the reset ends (log 5), those of log 6 in its
ports among them. -/
def Obligations.PortAndHeldLawsKept : Prop :=
  (∀ s t : State, PortLaw s → step s = .next t → PortLaw t) ∧ ∀ s t : State, HeldLaw s → step s = .next t → HeldLaw t

/-- All of these laws hold right after reset. -/
def Obligations.LawsAtReset : Prop :=
  LineLaw State.reset ∧ MaskLaw State.reset ∧ RevokeLaw State.reset ∧ LogLaw State.reset ∧ ClaimTableLaw State.reset ∧
    NoneGrantable State.reset ∧ AllChannels RangeLaw State.reset ∧ AllChannels ConfigLaw State.reset ∧
    AllChannels CheckLaw State.reset ∧ AllChannels CourseLaw State.reset ∧ FreeLaw State.reset ∧ PortLaw State.reset ∧
    HeldLaw State.reset

end
end

