-- ==== Sys2Proof/Laws/State.lean ====
section
/-!
SUPPORT. What each update of the state leaves in each field, so that no proof unfolds a record update.
-/

namespace Sys2Proof.Machine

/-! ### setChannel -/

@[simp] theorem State.setChannel_pending (s : State) (c : Ch) (u : ChannelUnit) : (s.setChannel c u).pending = s.pending := rfl
@[simp] theorem State.setChannel_inReset (s : State) (c : Ch) (u : ChannelUnit) : (s.setChannel c u).inReset = s.inReset := rfl
@[simp] theorem State.setChannel_timeTag (s : State) (c : Ch) (u : ChannelUnit) : (s.setChannel c u).timeTag = s.timeTag := rfl
@[simp] theorem State.setChannel_trg0 (s : State) (c : Ch) (u : ChannelUnit) : (s.setChannel c u).trg0 = s.trg0 := rfl
@[simp] theorem State.setChannel_trg1 (s : State) (c : Ch) (u : ChannelUnit) : (s.setChannel c u).trg1 = s.trg1 := rfl
@[simp] theorem State.setChannel_claims (s : State) (c : Ch) (u : ChannelUnit) : (s.setChannel c u).claims = s.claims := rfl
@[simp] theorem State.setChannel_channels (s : State) (c : Ch) (u : ChannelUnit) : (s.setChannel c u).channels = s.channels.set c u := rfl
@[simp] theorem State.setChannel_log (s : State) (c : Ch) (u : ChannelUnit) : (s.setChannel c u).log = s.log := rfl
@[simp] theorem State.setChannel_notices (s : State) (c : Ch) (u : ChannelUnit) : (s.setChannel c u).notices = s.notices := rfl
@[simp] theorem State.setChannel_ports (s : State) (c : Ch) (u : ChannelUnit) : (s.setChannel c u).ports = s.ports := rfl

/-! ### setPort -/

@[simp] theorem State.setPort_pending (s : State) (m : Master) (p : Port) : (s.setPort m p).pending = s.pending := rfl
@[simp] theorem State.setPort_inReset (s : State) (m : Master) (p : Port) : (s.setPort m p).inReset = s.inReset := rfl
@[simp] theorem State.setPort_timeTag (s : State) (m : Master) (p : Port) : (s.setPort m p).timeTag = s.timeTag := rfl
@[simp] theorem State.setPort_trg0 (s : State) (m : Master) (p : Port) : (s.setPort m p).trg0 = s.trg0 := rfl
@[simp] theorem State.setPort_trg1 (s : State) (m : Master) (p : Port) : (s.setPort m p).trg1 = s.trg1 := rfl
@[simp] theorem State.setPort_claims (s : State) (m : Master) (p : Port) : (s.setPort m p).claims = s.claims := rfl
@[simp] theorem State.setPort_channels (s : State) (m : Master) (p : Port) : (s.setPort m p).channels = s.channels := rfl
@[simp] theorem State.setPort_log (s : State) (m : Master) (p : Port) : (s.setPort m p).log = s.log := rfl
@[simp] theorem State.setPort_notices (s : State) (m : Master) (p : Port) : (s.setPort m p).notices = s.notices := rfl
@[simp] theorem State.setPort_ports (s : State) (m : Master) (p : Port) : (s.setPort m p).ports = s.ports.set m p := rfl

/-! ### onNotices -/

@[simp] theorem State.onNotices_pending (s : State) (m : Master) (f : NoticeState → NoticeState) : (s.onNotices m f).pending = s.pending := rfl
@[simp] theorem State.onNotices_inReset (s : State) (m : Master) (f : NoticeState → NoticeState) : (s.onNotices m f).inReset = s.inReset := rfl
@[simp] theorem State.onNotices_timeTag (s : State) (m : Master) (f : NoticeState → NoticeState) : (s.onNotices m f).timeTag = s.timeTag := rfl
@[simp] theorem State.onNotices_trg0 (s : State) (m : Master) (f : NoticeState → NoticeState) : (s.onNotices m f).trg0 = s.trg0 := rfl
@[simp] theorem State.onNotices_trg1 (s : State) (m : Master) (f : NoticeState → NoticeState) : (s.onNotices m f).trg1 = s.trg1 := rfl
@[simp] theorem State.onNotices_claims (s : State) (m : Master) (f : NoticeState → NoticeState) : (s.onNotices m f).claims = s.claims := rfl
@[simp] theorem State.onNotices_channels (s : State) (m : Master) (f : NoticeState → NoticeState) : (s.onNotices m f).channels = s.channels := rfl
@[simp] theorem State.onNotices_log (s : State) (m : Master) (f : NoticeState → NoticeState) : (s.onNotices m f).log = s.log := rfl
@[simp] theorem State.onNotices_notices (s : State) (m : Master) (f : NoticeState → NoticeState) : (s.onNotices m f).notices = s.notices.modify m f := rfl
@[simp] theorem State.onNotices_ports (s : State) (m : Master) (f : NoticeState → NoticeState) : (s.onNotices m f).ports = s.ports := rfl

/-! ### raise -/

@[simp] theorem State.raise_pending (s : State) (m : Master) (k : Notice) : (s.raise m k).pending = s.pending := rfl
@[simp] theorem State.raise_inReset (s : State) (m : Master) (k : Notice) : (s.raise m k).inReset = s.inReset := rfl
@[simp] theorem State.raise_timeTag (s : State) (m : Master) (k : Notice) : (s.raise m k).timeTag = s.timeTag := rfl
@[simp] theorem State.raise_trg0 (s : State) (m : Master) (k : Notice) : (s.raise m k).trg0 = s.trg0 := rfl
@[simp] theorem State.raise_trg1 (s : State) (m : Master) (k : Notice) : (s.raise m k).trg1 = s.trg1 := rfl
@[simp] theorem State.raise_claims (s : State) (m : Master) (k : Notice) : (s.raise m k).claims = s.claims := rfl
@[simp] theorem State.raise_channels (s : State) (m : Master) (k : Notice) : (s.raise m k).channels = s.channels := rfl
@[simp] theorem State.raise_log (s : State) (m : Master) (k : Notice) : (s.raise m k).log = s.log := rfl
@[simp] theorem State.raise_notices (s : State) (m : Master) (k : Notice) : (s.raise m k).notices = s.notices.modify m (NoticeState.raise k) := rfl
@[simp] theorem State.raise_ports (s : State) (m : Master) (k : Notice) : (s.raise m k).ports = s.ports := rfl

/-! ### setClaims -/

@[simp] theorem State.setClaims_pending (s : State) (t : ClaimTable) : (s.setClaims t).pending = s.pending := rfl
@[simp] theorem State.setClaims_inReset (s : State) (t : ClaimTable) : (s.setClaims t).inReset = s.inReset := rfl
@[simp] theorem State.setClaims_timeTag (s : State) (t : ClaimTable) : (s.setClaims t).timeTag = s.timeTag := rfl
@[simp] theorem State.setClaims_trg0 (s : State) (t : ClaimTable) : (s.setClaims t).trg0 = s.trg0 := rfl
@[simp] theorem State.setClaims_trg1 (s : State) (t : ClaimTable) : (s.setClaims t).trg1 = s.trg1 := rfl
@[simp] theorem State.setClaims_claims (s : State) (t : ClaimTable) : (s.setClaims t).claims = t := rfl
@[simp] theorem State.setClaims_channels (s : State) (t : ClaimTable) : (s.setClaims t).channels = s.channels := rfl
@[simp] theorem State.setClaims_log (s : State) (t : ClaimTable) : (s.setClaims t).log = s.log := rfl
@[simp] theorem State.setClaims_notices (s : State) (t : ClaimTable) : (s.setClaims t).notices = s.notices := rfl
@[simp] theorem State.setClaims_ports (s : State) (t : ClaimTable) : (s.setClaims t).ports = s.ports := rfl

/-! ### append -/

@[simp] theorem State.append_pending (s : State) (b : RecordBody) : (s.append b).pending = s.pending := rfl
@[simp] theorem State.append_inReset (s : State) (b : RecordBody) : (s.append b).inReset = s.inReset := rfl
@[simp] theorem State.append_timeTag (s : State) (b : RecordBody) : (s.append b).timeTag = s.timeTag := rfl
@[simp] theorem State.append_trg0 (s : State) (b : RecordBody) : (s.append b).trg0 = s.trg0 := rfl
@[simp] theorem State.append_trg1 (s : State) (b : RecordBody) : (s.append b).trg1 = s.trg1 := rfl
@[simp] theorem State.append_claims (s : State) (b : RecordBody) : (s.append b).claims = s.claims := rfl
@[simp] theorem State.append_channels (s : State) (b : RecordBody) : (s.append b).channels = s.channels := rfl
@[simp] theorem State.append_log (s : State) (b : RecordBody) : (s.append b).log = s.log.append s.timeTag b := rfl
@[simp] theorem State.append_ports (s : State) (b : RecordBody) : (s.append b).ports = s.ports := rfl

/-! ### endFrame -/

@[simp] theorem State.endFrame_pending (s : State) (m : Master) : (s.endFrame m).pending = s.pending := rfl
@[simp] theorem State.endFrame_inReset (s : State) (m : Master) : (s.endFrame m).inReset = s.inReset := rfl
@[simp] theorem State.endFrame_timeTag (s : State) (m : Master) : (s.endFrame m).timeTag = s.timeTag := rfl
@[simp] theorem State.endFrame_trg0 (s : State) (m : Master) : (s.endFrame m).trg0 = s.trg0 := rfl
@[simp] theorem State.endFrame_trg1 (s : State) (m : Master) : (s.endFrame m).trg1 = s.trg1 := rfl
@[simp] theorem State.endFrame_claims (s : State) (m : Master) : (s.endFrame m).claims = s.claims := rfl
@[simp] theorem State.endFrame_channels (s : State) (m : Master) : (s.endFrame m).channels = s.channels := rfl
@[simp] theorem State.endFrame_log (s : State) (m : Master) : (s.endFrame m).log = s.log := rfl
@[simp] theorem State.endFrame_notices (s : State) (m : Master) : (s.endFrame m).notices = s.notices := rfl
@[simp] theorem State.endFrame_ports (s : State) (m : Master) : (s.endFrame m).ports = s.ports.set m (s.port m).endFrame := rfl

/-! ### respond -/

@[simp] theorem State.respond_pending (s : State) (m : Master) (code : Byte) (a : Answer) : (s.respond m code a).pending = s.pending := rfl
@[simp] theorem State.respond_inReset (s : State) (m : Master) (code : Byte) (a : Answer) : (s.respond m code a).inReset = s.inReset := rfl
@[simp] theorem State.respond_timeTag (s : State) (m : Master) (code : Byte) (a : Answer) : (s.respond m code a).timeTag = s.timeTag := rfl
@[simp] theorem State.respond_trg0 (s : State) (m : Master) (code : Byte) (a : Answer) : (s.respond m code a).trg0 = s.trg0 := rfl
@[simp] theorem State.respond_trg1 (s : State) (m : Master) (code : Byte) (a : Answer) : (s.respond m code a).trg1 = s.trg1 := rfl
@[simp] theorem State.respond_claims (s : State) (m : Master) (code : Byte) (a : Answer) : (s.respond m code a).claims = s.claims := rfl
@[simp] theorem State.respond_channels (s : State) (m : Master) (code : Byte) (a : Answer) : (s.respond m code a).channels = s.channels := rfl
@[simp] theorem State.respond_log (s : State) (m : Master) (code : Byte) (a : Answer) : (s.respond m code a).log = s.log := rfl
@[simp] theorem State.respond_notices (s : State) (m : Master) (code : Byte) (a : Answer) : (s.respond m code a).notices = s.notices := rfl
@[simp] theorem State.respond_ports (s : State) (m : Master) (code : Byte) (a : Answer) : (s.respond m code a).ports = s.ports.set m ((s.port m).respond code a) := rfl

/-! ### onChannel -/

@[simp] theorem State.onChannel_pending (s : State) (c : Ch) (f : ChannelUnit → ChannelUnit) : (s.onChannel c f).pending = s.pending := rfl
@[simp] theorem State.onChannel_inReset (s : State) (c : Ch) (f : ChannelUnit → ChannelUnit) : (s.onChannel c f).inReset = s.inReset := rfl
@[simp] theorem State.onChannel_timeTag (s : State) (c : Ch) (f : ChannelUnit → ChannelUnit) : (s.onChannel c f).timeTag = s.timeTag := rfl
@[simp] theorem State.onChannel_trg0 (s : State) (c : Ch) (f : ChannelUnit → ChannelUnit) : (s.onChannel c f).trg0 = s.trg0 := rfl
@[simp] theorem State.onChannel_trg1 (s : State) (c : Ch) (f : ChannelUnit → ChannelUnit) : (s.onChannel c f).trg1 = s.trg1 := rfl
@[simp] theorem State.onChannel_claims (s : State) (c : Ch) (f : ChannelUnit → ChannelUnit) : (s.onChannel c f).claims = s.claims := rfl
@[simp] theorem State.onChannel_channels (s : State) (c : Ch) (f : ChannelUnit → ChannelUnit) : (s.onChannel c f).channels = s.channels.set c (f (s.channel c)) := rfl
@[simp] theorem State.onChannel_log (s : State) (c : Ch) (f : ChannelUnit → ChannelUnit) : (s.onChannel c f).log = s.log := rfl
@[simp] theorem State.onChannel_notices (s : State) (c : Ch) (f : ChannelUnit → ChannelUnit) : (s.onChannel c f).notices = s.notices := rfl
@[simp] theorem State.onChannel_ports (s : State) (c : Ch) (f : ChannelUnit → ChannelUnit) : (s.onChannel c f).ports = s.ports := rfl

/-! ### Reading a block after an update of another -/

@[simp] theorem State.setChannel_port (s : State) (c : Ch) (u : ChannelUnit) (d : Master) : (s.setChannel c u).port d = s.port d := rfl
@[simp] theorem State.setChannel_notice (s : State) (c : Ch) (u : ChannelUnit) (d : Master) : (s.setChannel c u).notice d = s.notice d := rfl
@[simp] theorem State.setChannel_entry (s : State) (c : Ch) (u : ChannelUnit) (p : Pos) : (s.setChannel c u).entry p = s.entry p := rfl
@[simp] theorem State.setChannel_barred (s : State) (c : Ch) (u : ChannelUnit) (d : Master) : (s.setChannel c u).barred d = s.barred d := rfl
@[simp] theorem State.setChannel_holder (s : State) (c : Ch) (u : ChannelUnit) (d : Ch) : (s.setChannel c u).holder d = s.holder d := rfl
@[simp] theorem State.setChannel_holdsAll (s : State) (c : Ch) (u : ChannelUnit) (d : Master) (set : ChannelSet) : (s.setChannel c u).holdsAll d set = s.holdsAll d set := rfl
@[simp] theorem State.setChannel_allFree (s : State) (c : Ch) (u : ChannelUnit) (set : ChannelSet) : (s.setChannel c u).allFree set = s.allFree set := rfl
@[simp] theorem State.setPort_channel (s : State) (m : Master) (p : Port) (d : Ch) : (s.setPort m p).channel d = s.channel d := rfl
@[simp] theorem State.setPort_notice (s : State) (m : Master) (p : Port) (d : Master) : (s.setPort m p).notice d = s.notice d := rfl
@[simp] theorem State.setPort_entry (s : State) (m : Master) (x : Port) (p : Pos) : (s.setPort m x).entry p = s.entry p := rfl
@[simp] theorem State.setPort_barred (s : State) (m : Master) (p : Port) (d : Master) : (s.setPort m p).barred d = s.barred d := rfl
@[simp] theorem State.setPort_holder (s : State) (m : Master) (p : Port) (d : Ch) : (s.setPort m p).holder d = s.holder d := rfl
@[simp] theorem State.setPort_holdsAll (s : State) (m : Master) (p : Port) (d : Master) (set : ChannelSet) : (s.setPort m p).holdsAll d set = s.holdsAll d set := rfl
@[simp] theorem State.setPort_allFree (s : State) (m : Master) (p : Port) (set : ChannelSet) : (s.setPort m p).allFree set = s.allFree set := rfl
@[simp] theorem State.onNotices_channel (s : State) (m : Master) (f : NoticeState → NoticeState) (d : Ch) : (s.onNotices m f).channel d = s.channel d := rfl
@[simp] theorem State.onNotices_port (s : State) (m : Master) (f : NoticeState → NoticeState) (d : Master) : (s.onNotices m f).port d = s.port d := rfl
@[simp] theorem State.onNotices_entry (s : State) (m : Master) (f : NoticeState → NoticeState) (p : Pos) : (s.onNotices m f).entry p = s.entry p := rfl
@[simp] theorem State.onNotices_barred (s : State) (m : Master) (f : NoticeState → NoticeState) (d : Master) : (s.onNotices m f).barred d = s.barred d := rfl
@[simp] theorem State.onNotices_holder (s : State) (m : Master) (f : NoticeState → NoticeState) (d : Ch) : (s.onNotices m f).holder d = s.holder d := rfl
@[simp] theorem State.onNotices_holdsAll (s : State) (m : Master) (f : NoticeState → NoticeState) (d : Master) (set : ChannelSet) : (s.onNotices m f).holdsAll d set = s.holdsAll d set := rfl
@[simp] theorem State.onNotices_allFree (s : State) (m : Master) (f : NoticeState → NoticeState) (set : ChannelSet) : (s.onNotices m f).allFree set = s.allFree set := rfl
@[simp] theorem State.raise_channel (s : State) (m : Master) (k : Notice) (d : Ch) : (s.raise m k).channel d = s.channel d := rfl
@[simp] theorem State.raise_port (s : State) (m : Master) (k : Notice) (d : Master) : (s.raise m k).port d = s.port d := rfl
@[simp] theorem State.raise_entry (s : State) (m : Master) (k : Notice) (p : Pos) : (s.raise m k).entry p = s.entry p := rfl
@[simp] theorem State.raise_barred (s : State) (m : Master) (k : Notice) (d : Master) : (s.raise m k).barred d = s.barred d := rfl
@[simp] theorem State.raise_holder (s : State) (m : Master) (k : Notice) (d : Ch) : (s.raise m k).holder d = s.holder d := rfl
@[simp] theorem State.raise_holdsAll (s : State) (m : Master) (k : Notice) (d : Master) (set : ChannelSet) : (s.raise m k).holdsAll d set = s.holdsAll d set := rfl
@[simp] theorem State.raise_allFree (s : State) (m : Master) (k : Notice) (set : ChannelSet) : (s.raise m k).allFree set = s.allFree set := rfl
@[simp] theorem State.setClaims_channel (s : State) (t : ClaimTable) (d : Ch) : (s.setClaims t).channel d = s.channel d := rfl
@[simp] theorem State.setClaims_port (s : State) (t : ClaimTable) (d : Master) : (s.setClaims t).port d = s.port d := rfl
@[simp] theorem State.setClaims_notice (s : State) (t : ClaimTable) (d : Master) : (s.setClaims t).notice d = s.notice d := rfl
@[simp] theorem State.append_channel (s : State) (b : RecordBody) (d : Ch) : (s.append b).channel d = s.channel d := rfl
@[simp] theorem State.append_port (s : State) (b : RecordBody) (d : Master) : (s.append b).port d = s.port d := rfl
@[simp] theorem State.append_entry (s : State) (b : RecordBody) (p : Pos) : (s.append b).entry p = s.entry p := rfl
@[simp] theorem State.append_barred (s : State) (b : RecordBody) (d : Master) : (s.append b).barred d = s.barred d := rfl
@[simp] theorem State.append_holder (s : State) (b : RecordBody) (d : Ch) : (s.append b).holder d = s.holder d := rfl
@[simp] theorem State.append_holdsAll (s : State) (b : RecordBody) (d : Master) (set : ChannelSet) : (s.append b).holdsAll d set = s.holdsAll d set := rfl
@[simp] theorem State.append_allFree (s : State) (b : RecordBody) (set : ChannelSet) : (s.append b).allFree set = s.allFree set := rfl
@[simp] theorem State.endFrame_channel (s : State) (m : Master) (d : Ch) : (s.endFrame m).channel d = s.channel d := rfl
@[simp] theorem State.endFrame_notice (s : State) (m : Master) (d : Master) : (s.endFrame m).notice d = s.notice d := rfl
@[simp] theorem State.endFrame_entry (s : State) (m : Master) (p : Pos) : (s.endFrame m).entry p = s.entry p := rfl
@[simp] theorem State.endFrame_barred (s : State) (m : Master) (d : Master) : (s.endFrame m).barred d = s.barred d := rfl
@[simp] theorem State.endFrame_holder (s : State) (m : Master) (d : Ch) : (s.endFrame m).holder d = s.holder d := rfl
@[simp] theorem State.endFrame_holdsAll (s : State) (m : Master) (d : Master) (set : ChannelSet) : (s.endFrame m).holdsAll d set = s.holdsAll d set := rfl
@[simp] theorem State.endFrame_allFree (s : State) (m : Master) (set : ChannelSet) : (s.endFrame m).allFree set = s.allFree set := rfl
@[simp] theorem State.respond_channel (s : State) (m : Master) (code : Byte) (a : Answer) (d : Ch) : (s.respond m code a).channel d = s.channel d := rfl
@[simp] theorem State.respond_notice (s : State) (m : Master) (code : Byte) (a : Answer) (d : Master) : (s.respond m code a).notice d = s.notice d := rfl
@[simp] theorem State.respond_entry (s : State) (m : Master) (code : Byte) (a : Answer) (p : Pos) : (s.respond m code a).entry p = s.entry p := rfl
@[simp] theorem State.respond_barred (s : State) (m : Master) (code : Byte) (a : Answer) (d : Master) : (s.respond m code a).barred d = s.barred d := rfl
@[simp] theorem State.respond_holder (s : State) (m : Master) (code : Byte) (a : Answer) (d : Ch) : (s.respond m code a).holder d = s.holder d := rfl
@[simp] theorem State.respond_holdsAll (s : State) (m : Master) (code : Byte) (a : Answer) (d : Master) (set : ChannelSet) : (s.respond m code a).holdsAll d set = s.holdsAll d set := rfl
@[simp] theorem State.respond_allFree (s : State) (m : Master) (code : Byte) (a : Answer) (set : ChannelSet) : (s.respond m code a).allFree set = s.allFree set := rfl
@[simp] theorem State.onChannel_port (s : State) (c : Ch) (f : ChannelUnit → ChannelUnit) (d : Master) : (s.onChannel c f).port d = s.port d := rfl
@[simp] theorem State.onChannel_notice (s : State) (c : Ch) (f : ChannelUnit → ChannelUnit) (d : Master) : (s.onChannel c f).notice d = s.notice d := rfl
@[simp] theorem State.onChannel_entry (s : State) (c : Ch) (f : ChannelUnit → ChannelUnit) (p : Pos) : (s.onChannel c f).entry p = s.entry p := rfl
@[simp] theorem State.onChannel_barred (s : State) (c : Ch) (f : ChannelUnit → ChannelUnit) (d : Master) : (s.onChannel c f).barred d = s.barred d := rfl
@[simp] theorem State.onChannel_holder (s : State) (c : Ch) (f : ChannelUnit → ChannelUnit) (d : Ch) : (s.onChannel c f).holder d = s.holder d := rfl
@[simp] theorem State.onChannel_holdsAll (s : State) (c : Ch) (f : ChannelUnit → ChannelUnit) (d : Master) (set : ChannelSet) : (s.onChannel c f).holdsAll d set = s.holdsAll d set := rfl
@[simp] theorem State.onChannel_allFree (s : State) (c : Ch) (f : ChannelUnit → ChannelUnit) (set : ChannelSet) : (s.onChannel c f).allFree set = s.allFree set := rfl

end Sys2Proof.Machine
end

