-- ==== Sys2Proof/Laws/Ops.lean ====
section
/-!
SUPPORT. What each shared operation of the state can do, said once: the reading of a block after its own update, the log's
append, events at channel units, grant evaluation, and the head of a request.
-/

namespace Sys2Proof.Machine

/-! ## One value for each master -/

@[simp] theorem PerMaster.get_set_same {α : Type} (p : PerMaster α) (m : Master) (a : α) : (p.set m a).get m = a := by
  cases m <;> rfl

theorem PerMaster.get_set_other {α : Type} (p : PerMaster α) {m n : Master} (a : α) (h : n ≠ m) :
    (p.set m a).get n = p.get n := by
  cases m <;> cases n <;> first | rfl | exact absurd rfl h

@[simp] theorem PerMaster.get_modify_same {α : Type} (p : PerMaster α) (m : Master) (f : α → α) :
    (p.modify m f).get m = f (p.get m) := PerMaster.get_set_same p m _

theorem PerMaster.get_modify_other {α : Type} (p : PerMaster α) {m n : Master} (f : α → α) (h : n ≠ m) :
    (p.modify m f).get n = p.get n := PerMaster.get_set_other p _ h

@[simp] theorem PerMaster.get_mapWith {α β : Type} (f : Master → α → β) (p : PerMaster α) (m : Master) :
    (p.mapWith f).get m = f m (p.get m) := by cases m <;> rfl

@[simp] theorem PerMaster.get_all {α : Type} (a : α) (m : Master) : (PerMaster.all a).get m = a := by cases m <;> rfl

/-- A property of every master follows a modification of one. -/
theorem PerMaster.forall_modify {α : Type} {P : α → Prop} {p : PerMaster α} {m : Master} {f : α → α}
    (hp : ∀ n, P (p.get n)) (hf : P (p.get m) → P (f (p.get m))) : ∀ n, P ((p.modify m f).get n) := by
  intro n
  by_cases h : n = m
  · subst h; rw [PerMaster.get_modify_same]; exact hf (hp n)
  · rw [PerMaster.get_modify_other p f h]; exact hp n

@[simp] theorem mapVector_get {α : Type} {n : Nat} (f : α → α) (v : Vector α n) (i : Fin n) :
    (mapVector f v)[i.val] = f v[i.val] := by
  simp [mapVector]

/-! ## Blocks -/

@[simp] theorem State.channel_setChannel_same (s : State) (c : Ch) (u : ChannelUnit) : (s.setChannel c u).channel c = u := by
  simp [State.channel]

theorem State.channel_setChannel_other (s : State) {c d : Ch} (u : ChannelUnit) (h : d ≠ c) :
    (s.setChannel c u).channel d = s.channel d := by
  have hv : c.val ≠ d.val := fun e => h (Fin.ext e.symm)
  simp [State.channel, hv]

@[simp] theorem State.channel_onChannel_same (s : State) (c : Ch) (f : ChannelUnit → ChannelUnit) :
    (s.onChannel c f).channel c = f (s.channel c) := State.channel_setChannel_same s c _

theorem State.channel_onChannel_other (s : State) {c d : Ch} (f : ChannelUnit → ChannelUnit) (h : d ≠ c) :
    (s.onChannel c f).channel d = s.channel d := State.channel_setChannel_other s _ h

/-- A channel unit replaced by itself leaves the state as it is. -/
@[simp] theorem State.setChannel_channel (s : State) (c : Ch) : s.setChannel c (s.channel c) = s := by
  simp [State.setChannel, State.channel]

@[simp] theorem State.port_setPort_same (s : State) (m : Master) (p : Port) : (s.setPort m p).port m = p :=
  PerMaster.get_set_same _ _ _

theorem State.port_setPort_other (s : State) {m n : Master} (p : Port) (h : n ≠ m) : (s.setPort m p).port n = s.port n :=
  PerMaster.get_set_other _ _ h

@[simp] theorem State.notice_onNotices_same (s : State) (m : Master) (f : NoticeState → NoticeState) :
    (s.onNotices m f).notice m = f (s.notice m) := PerMaster.get_modify_same _ _ _

theorem State.notice_onNotices_other (s : State) {m n : Master} (f : NoticeState → NoticeState) (h : n ≠ m) :
    (s.onNotices m f).notice n = s.notice n := PerMaster.get_modify_other _ _ h

@[simp] theorem State.notice_raise_same (s : State) (m : Master) (k : Notice) :
    (s.raise m k).notice m = (s.notice m).raise k := PerMaster.get_modify_same _ _ _

theorem State.notice_raise_other (s : State) {m n : Master} (k : Notice) (h : n ≠ m) :
    (s.raise m k).notice n = s.notice n := PerMaster.get_modify_other _ _ h

@[simp] theorem ClaimTable.setEntry_same (t : ClaimTable) (p : Pos) (e : Option ClaimEntry) :
    (t.setEntry p e).entries[p.val] = e := by
  simp [ClaimTable.setEntry]

theorem ClaimTable.setEntry_other (t : ClaimTable) {p q : Pos} (e : Option ClaimEntry) (h : q ≠ p) :
    (t.setEntry p e).entries[q] = t.entries[q] := by
  have hv : p.val ≠ q.val := fun x => h (Fin.ext x.symm)
  simp [ClaimTable.setEntry, hv]

@[simp] theorem ClaimTable.dequeue_entries (t : ClaimTable) (p : Pos) : (t.dequeue p).entries = t.entries := rfl

@[simp] theorem ClaimTable.remove_same (t : ClaimTable) (p : Pos) : (t.remove p).entries[p.val] = none := by
  simp [ClaimTable.remove]

theorem ClaimTable.remove_other (t : ClaimTable) {p q : Pos} (h : q ≠ p) : (t.remove p).entries[q] = t.entries[q] := by
  simp only [ClaimTable.remove, ClaimTable.dequeue_entries]; exact ClaimTable.setEntry_other t none h

/-- The entry that carries a number, when there is one, stands where `find` says and carries it. -/
theorem ClaimTable.find_spec {t : ClaimTable} {number : Byte} {p : Pos} {e : ClaimEntry} (h : t.find number = some (p, e)) :
    t.entries[p] = some e ∧ e.number = number := by
  unfold ClaimTable.find at h
  obtain ⟨q, -, hq⟩ := List.exists_of_findSome?_eq_some h
  obtain ⟨f, hf, hfe⟩ := Option.map_eq_some_iff.mp hq
  obtain ⟨hs, hn⟩ := Option.filter_eq_some_iff.mp hf
  obtain ⟨rfl, rfl⟩ := Prod.mk.injEq .. ▸ hfe
  exact ⟨hs, by simpa using hn⟩

/-- The entry that `holding` answers is in force, stands in the table and has the channel in its set. -/
theorem ClaimTable.holding_spec {t : ClaimTable} {c : Ch} {e : ClaimEntry} (h : t.holding c = some e) :
    ∃ p : Pos, t.entries[p] = some e ∧ e.inForce = true ∧ e.set.getLsbD c.val = true := by
  unfold ClaimTable.holding at h
  obtain ⟨p, -, hp⟩ := List.exists_of_findSome?_eq_some h
  obtain ⟨hs, hh⟩ := Option.filter_eq_some_iff.mp hp
  unfold ClaimEntry.holds at hh
  exact ⟨p, hs, by simpa using hh⟩

/-- A position is one of the eight. -/
theorem mem_allPositions (p : Pos) : p ∈ allPositions := by revert p; decide

/-- A channel is one of the twelve. -/
theorem mem_allChannels (c : Ch) : c ∈ allChannels := by revert c; decide

theorem mem_channelsOf {set : ChannelSet} {c : Ch} : c ∈ channelsOf set ↔ set.getLsbD c.val = true := by
  simp [channelsOf, mem_allChannels]

theorem allChannels_nodup : allChannels.Nodup := by decide

theorem channelsOf_nodup (set : ChannelSet) : (channelsOf set).Nodup := allChannels_nodup.filter _

/-- A channel is free exactly when no entry in force has it in its set (R3). -/
theorem State.holder_eq_none {s : State} {c : Ch} :
    s.holder c = none ↔ ∀ p e, s.entry p = some e → e.inForce = true → e.set.getLsbD c.val = false := by
  simp only [State.holder, Option.map_eq_none_iff, ClaimTable.holding, List.findSome?_eq_none_iff, Option.filter_eq_none_iff]
  constructor
  · intro h p e he hf
    have := h p (mem_allPositions p) e he
    simpa [ClaimEntry.holds, hf] using this
  · intro h p _ e he
    have := h p e he
    cases hf : e.inForce <;> simp_all [ClaimEntry.holds]

/-! ## The log -/

/-- A record appended to a log that is not full. -/
theorem CompletionLog.append_room {l : CompletionLog} (tag : Word32) (b : RecordBody)
    (h : l.records.length < Config.logCapacity) :
    l.append tag b =
      { records := l.records ++ [{ seq := l.nextSeq, tag := tag, body := b }], nextSeq := l.nextSeq + 1
        readers := l.readers } := by
  simp [CompletionLog.append, CompletionLog.makeRoom, h]

/-- A record appended to a full log: the oldest is removed, and readers whose cursor designated it are carried forward. -/
theorem CompletionLog.append_full {l : CompletionLog} (tag : Word32) (b : RecordBody) {removed oldest : LogRecord}
    {rest : List LogRecord} (hr : l.records = removed :: oldest :: rest) (h : Config.logCapacity ≤ l.records.length) :
    l.append tag b =
      { records := (oldest :: rest) ++ [{ seq := l.nextSeq, tag := tag, body := b }], nextSeq := l.nextSeq + 1
        readers := l.readers.mapWith (fun _ r => r.carry removed.seq oldest.seq) } := by
  have hn : ¬ l.records.length < Config.logCapacity := by omega
  simp only [CompletionLog.append, CompletionLog.makeRoom, hn, if_false]
  simp only [hr]

/-- The next sequence number is one higher after an append. -/
@[simp] theorem CompletionLog.append_nextSeq (l : CompletionLog) (tag : Word32) (b : RecordBody) :
    (l.append tag b).nextSeq = l.nextSeq + 1 := by
  simp only [CompletionLog.append, CompletionLog.makeRoom]
  split
  · rfl
  · split <;> rfl

/-- No append changes a threshold. -/
@[simp] theorem CompletionLog.append_threshold (l : CompletionLog) (tag : Word32) (b : RecordBody) (m : Master) :
    ((l.append tag b).readers.get m).threshold = (l.readers.get m).threshold := by
  simp only [CompletionLog.append, CompletionLog.makeRoom]
  split
  · rfl
  · split
    · simp only [PerMaster.get_mapWith, LogReader.carry]; split <;> rfl
    · rfl

/-- An append changes a master's notices by LOG alone. -/
theorem State.notice_append (s : State) (b : RecordBody) (m : Master) :
    (s.append b).notice m = s.notice m ∨ (s.append b).notice m = (s.notice m).raise .log := by
  simp only [State.notice, State.append, PerMaster.get_mapWith]
  split
  · exact Or.inr rfl
  · exact Or.inl rfl

/-! ## Records and notices of a channel -/

/-- What a channel's record or notice can be: nothing, an append, or a notice of the holder. -/
theorem State.emit_cases (s : State) (c : Ch) (e : ChannelEffect) :
    s.emit c e = s ∨ (∃ m r, s.holder c = some m ∧ s.emit c e = s.append (.channel m c r)) ∨
      ∃ m k, s.holder c = some m ∧ s.emit c e = s.raise m k := by
  unfold State.emit
  cases h : s.holder c with
  | none => exact Or.inl rfl
  | some m =>
    cases e with
    | record r => exact Or.inr (Or.inl ⟨m, r, rfl, rfl⟩)
    | notice k => exact Or.inr (Or.inr ⟨m, k, rfl, rfl⟩)

/-- Any projection that an append and a notice leave alone is left alone by the effects of a channel event. -/
theorem State.emits_keep {α : Type} (g : State → α) (happ : ∀ s b, g (State.append b s) = g s)
    (hraise : ∀ s m k, g (State.raise m k s) = g s) (c : Ch) (es : List ChannelEffect) (s : State) :
    g (es.foldl (State.emit c) s) = g s := by
  induction es generalizing s with
  | nil => rfl
  | cons e rest ih =>
    rw [List.foldl_cons, ih]
    rcases s.emit_cases c e with h | ⟨m, r, -, h⟩ | ⟨m, k, -, h⟩ <;> rw [h]
    · exact happ ..
    · exact hraise ..

/-- Any property that an append and a notice keep is kept by the effects of a channel event. -/
theorem State.emits_induct {P : State → Prop} (happ : ∀ s b, P s → P (State.append b s))
    (hraise : ∀ s m k, P s → P (State.raise m k s)) (c : Ch) (es : List ChannelEffect) (s : State) (h : P s) :
    P (es.foldl (State.emit c) s) := by
  induction es generalizing s with
  | nil => exact h
  | cons e rest ih =>
    rw [List.foldl_cons]
    apply ih
    rcases s.emit_cases c e with h' | ⟨m, r, -, h'⟩ | ⟨m, k, -, h'⟩ <;> rw [h']
    · exact h
    · exact happ _ _ h
    · exact hraise _ _ _ h

/-- A notice that a channel raises is LIST or FAULT, and never REVOKED: so the effects of an event keep any property that
appends and such notices keep. -/
theorem State.channelEvent_keep {α : Type} (g : State → α) (hset : ∀ s c u, g (State.setChannel s c u) = g s)
    (happ : ∀ s b, g (State.append b s) = g s) (hraise : ∀ s m k, g (State.raise m k s) = g s) (c : Ch)
    (f : ChannelUnit → Progress) (s : State) : g (s.channelEvent c f) = g s := by
  unfold State.channelEvent
  rw [State.emits_keep g happ hraise, hset]

/-- The channel unit an event concerns is as the event leaves it. -/
@[simp] theorem State.channelEvent_channel_same (s : State) (c : Ch) (f : ChannelUnit → Progress) :
    (s.channelEvent c f).channel c = (f (s.channel c)).1 := by
  unfold State.channelEvent
  rw [State.emits_keep (fun t => t.channel c) (fun _ _ => rfl) (fun _ _ _ => rfl), State.channel_setChannel_same]

/-- Every other channel unit is left as it is. -/
theorem State.channelEvent_channel_other (s : State) {c d : Ch} (f : ChannelUnit → Progress) (h : d ≠ c) :
    (s.channelEvent c f).channel d = s.channel d := by
  unfold State.channelEvent
  rw [State.emits_keep (fun t => t.channel d) (fun _ _ => rfl) (fun _ _ _ => rfl), State.channel_setChannel_other _ _ h]

@[simp] theorem State.channelEvent_claims (s : State) (c : Ch) (f : ChannelUnit → Progress) :
    (s.channelEvent c f).claims = s.claims :=
  State.channelEvent_keep State.claims (fun _ _ _ => rfl) (fun _ _ => rfl) (fun _ _ _ => rfl) c f s

@[simp] theorem State.channelEvent_ports (s : State) (c : Ch) (f : ChannelUnit → Progress) :
    (s.channelEvent c f).ports = s.ports :=
  State.channelEvent_keep State.ports (fun _ _ _ => rfl) (fun _ _ => rfl) (fun _ _ _ => rfl) c f s

@[simp] theorem State.channelEvent_timeTag (s : State) (c : Ch) (f : ChannelUnit → Progress) :
    (s.channelEvent c f).timeTag = s.timeTag :=
  State.channelEvent_keep State.timeTag (fun _ _ _ => rfl) (fun _ _ => rfl) (fun _ _ _ => rfl) c f s

@[simp] theorem State.channelEvent_pending (s : State) (c : Ch) (f : ChannelUnit → Progress) :
    (s.channelEvent c f).pending = s.pending :=
  State.channelEvent_keep State.pending (fun _ _ _ => rfl) (fun _ _ => rfl) (fun _ _ _ => rfl) c f s

@[simp] theorem State.channelEvent_inReset (s : State) (c : Ch) (f : ChannelUnit → Progress) :
    (s.channelEvent c f).inReset = s.inReset :=
  State.channelEvent_keep State.inReset (fun _ _ _ => rfl) (fun _ _ => rfl) (fun _ _ _ => rfl) c f s

@[simp] theorem State.channelEvent_trg0 (s : State) (c : Ch) (f : ChannelUnit → Progress) :
    (s.channelEvent c f).trg0 = s.trg0 :=
  State.channelEvent_keep State.trg0 (fun _ _ _ => rfl) (fun _ _ => rfl) (fun _ _ _ => rfl) c f s

@[simp] theorem State.channelEvent_trg1 (s : State) (c : Ch) (f : ChannelUnit → Progress) :
    (s.channelEvent c f).trg1 = s.trg1 :=
  State.channelEvent_keep State.trg1 (fun _ _ _ => rfl) (fun _ _ => rfl) (fun _ _ _ => rfl) c f s

/-- Any projection that channel updates, appends and notices leave alone is left alone by events at several channels. -/
theorem State.channelEvents_keep {α : Type} (g : State → α) (hset : ∀ s c u, g (State.setChannel s c u) = g s)
    (happ : ∀ s b, g (State.append b s) = g s) (hraise : ∀ s m k, g (State.raise m k s) = g s) (cs : List Ch)
    (f : ChannelUnit → Progress) (s : State) : g (s.channelEvents cs f) = g s := by
  unfold State.channelEvents
  induction cs generalizing s with
  | nil => rfl
  | cons c rest ih => rw [List.foldl_cons, ih]; exact State.channelEvent_keep g hset happ hraise c f s

/-- A property that events at one channel keep is kept by events at several. -/
theorem State.channelEvents_induct {P : State → Prop} {f : ChannelUnit → Progress} (cs : List Ch)
    (h : ∀ s c, c ∈ cs → P s → P (s.channelEvent c f)) (s : State) (hs : P s) : P (s.channelEvents cs f) := by
  unfold State.channelEvents
  induction cs generalizing s with
  | nil => exact hs
  | cons c rest ih =>
    rw [List.foldl_cons]
    exact ih (fun s d hd => h s d (List.mem_cons_of_mem _ hd)) _ (h s c List.mem_cons_self hs)

/-- Events at several channels leave every other channel as it is. -/
theorem State.channelEvents_channel_other (cs : List Ch) (f : ChannelUnit → Progress) {d : Ch} (h : d ∉ cs) (s : State) :
    (s.channelEvents cs f).channel d = s.channel d :=
  State.channelEvents_induct (P := fun t => t.channel d = s.channel d) cs
    (fun t c hc ht => by
      rw [State.channelEvent_channel_other t f (fun e => h (by rw [e]; exact hc))]; exact ht) s rfl

/-- Events at several channels, each named once, leave each of them as its own event does. -/
theorem State.channelEvents_channel_same (cs : List Ch) (f : ChannelUnit → Progress) {c : Ch} (hn : cs.Nodup) (h : c ∈ cs)
    (s : State) : (s.channelEvents cs f).channel c = (f (s.channel c)).1 := by
  induction cs generalizing s with
  | nil => exact absurd h (by simp)
  | cons d rest ih =>
    have hd : d ∉ rest := (List.nodup_cons.mp hn).1
    show ((s.channelEvent d f).channelEvents rest f).channel c = _
    by_cases e : c = d
    · subst e
      rw [State.channelEvents_channel_other rest f hd]; simp
    · have hc : c ∈ rest := by simpa [e] using h
      rw [ih (List.nodup_cons.mp hn).2 hc, State.channelEvent_channel_other s f e]

@[simp] theorem State.channelEvents_claims (s : State) (cs : List Ch) (f : ChannelUnit → Progress) :
    (s.channelEvents cs f).claims = s.claims :=
  State.channelEvents_keep State.claims (fun _ _ _ => rfl) (fun _ _ => rfl) (fun _ _ _ => rfl) cs f s

@[simp] theorem State.channelEvents_ports (s : State) (cs : List Ch) (f : ChannelUnit → Progress) :
    (s.channelEvents cs f).ports = s.ports :=
  State.channelEvents_keep State.ports (fun _ _ _ => rfl) (fun _ _ => rfl) (fun _ _ _ => rfl) cs f s

@[simp] theorem State.channelEvents_timeTag (s : State) (cs : List Ch) (f : ChannelUnit → Progress) :
    (s.channelEvents cs f).timeTag = s.timeTag :=
  State.channelEvents_keep State.timeTag (fun _ _ _ => rfl) (fun _ _ => rfl) (fun _ _ _ => rfl) cs f s

@[simp] theorem State.channelEvents_pending (s : State) (cs : List Ch) (f : ChannelUnit → Progress) :
    (s.channelEvents cs f).pending = s.pending :=
  State.channelEvents_keep State.pending (fun _ _ _ => rfl) (fun _ _ => rfl) (fun _ _ _ => rfl) cs f s

@[simp] theorem State.channelEvents_inReset (s : State) (cs : List Ch) (f : ChannelUnit → Progress) :
    (s.channelEvents cs f).inReset = s.inReset :=
  State.channelEvents_keep State.inReset (fun _ _ _ => rfl) (fun _ _ => rfl) (fun _ _ _ => rfl) cs f s

/-! ## Orders and renewals -/

/-- An order to each channel of a set reaches those channels, each once, and no other. -/
theorem State.orderAll_channel (s : State) (set : ChannelSet) (f : ChannelUnit → ChannelUnit) (c : Ch) :
    (s.orderAll set f).channel c = if set.getLsbD c.val = true then f (s.channel c) else s.channel c := by
  suffices h : ∀ cs : List Ch, cs.Nodup → ∀ s : State,
      (cs.foldl (fun s c => s.onChannel c f) s).channel c = if c ∈ cs then f (s.channel c) else s.channel c by
    unfold State.orderAll
    rw [h _ (channelsOf_nodup set)]
    simp only [mem_channelsOf]
  intro cs hn
  induction cs with
  | nil => intro s; simp
  | cons d rest ih =>
    intro s
    obtain ⟨hd, hr⟩ := List.nodup_cons.mp hn
    rw [List.foldl_cons, ih hr]
    by_cases e : c = d
    · subst e; simp [hd]
    · simp [e, State.channel_onChannel_other s f e]

/-- Any projection that channel updates leave alone is left alone by orders. -/
theorem State.orderAll_keep {α : Type} (g : State → α) (hset : ∀ s c u, g (State.setChannel s c u) = g s) (s : State)
    (set : ChannelSet) (f : ChannelUnit → ChannelUnit) : g (s.orderAll set f) = g s := by
  unfold State.orderAll
  generalize channelsOf set = cs
  induction cs generalizing s with
  | nil => rfl
  | cons d rest ih => rw [List.foldl_cons, ih]; exact hset ..

@[simp] theorem State.orderAll_claims (s : State) (set : ChannelSet) (f : ChannelUnit → ChannelUnit) :
    (s.orderAll set f).claims = s.claims := State.orderAll_keep State.claims (fun _ _ _ => rfl) s set f

@[simp] theorem State.orderAll_log (s : State) (set : ChannelSet) (f : ChannelUnit → ChannelUnit) :
    (s.orderAll set f).log = s.log := State.orderAll_keep State.log (fun _ _ _ => rfl) s set f

@[simp] theorem State.orderAll_notices (s : State) (set : ChannelSet) (f : ChannelUnit → ChannelUnit) :
    (s.orderAll set f).notices = s.notices := State.orderAll_keep State.notices (fun _ _ _ => rfl) s set f

@[simp] theorem State.orderAll_ports (s : State) (set : ChannelSet) (f : ChannelUnit → ChannelUnit) :
    (s.orderAll set f).ports = s.ports := State.orderAll_keep State.ports (fun _ _ _ => rfl) s set f

@[simp] theorem State.orderAll_timeTag (s : State) (set : ChannelSet) (f : ChannelUnit → ChannelUnit) :
    (s.orderAll set f).timeTag = s.timeTag := State.orderAll_keep State.timeTag (fun _ _ _ => rfl) s set f

@[simp] theorem State.orderAll_pending (s : State) (set : ChannelSet) (f : ChannelUnit → ChannelUnit) :
    (s.orderAll set f).pending = s.pending := State.orderAll_keep State.pending (fun _ _ _ => rfl) s set f

@[simp] theorem State.orderAll_inReset (s : State) (set : ChannelSet) (f : ChannelUnit → ChannelUnit) :
    (s.orderAll set f).inReset = s.inReset := State.orderAll_keep State.inReset (fun _ _ _ => rfl) s set f

/-- A renewal renews each entry, or leaves it, and keeps its position. -/
@[simp] theorem State.renewLeases_entry (s : State) (m : Master) (set : ChannelSet) (p : Pos) :
    (s.renewLeases m set).entry p = (s.entry p).map (ClaimEntry.renewFor m set) :=
  mapVector_get _ _ p

@[simp] theorem State.renewLeases_channels (s : State) (m : Master) (set : ChannelSet) :
    (s.renewLeases m set).channels = s.channels := rfl

@[simp] theorem State.renewLeases_log (s : State) (m : Master) (set : ChannelSet) : (s.renewLeases m set).log = s.log := rfl

@[simp] theorem State.renewLeases_notices (s : State) (m : Master) (set : ChannelSet) :
    (s.renewLeases m set).notices = s.notices := rfl

@[simp] theorem State.renewLeases_ports (s : State) (m : Master) (set : ChannelSet) :
    (s.renewLeases m set).ports = s.ports := rfl

@[simp] theorem State.renewLeases_pending (s : State) (m : Master) (set : ChannelSet) :
    (s.renewLeases m set).pending = s.pending := rfl

/-- Renewal changes nothing of an entry but its lease remaining. -/
theorem ClaimEntry.renew_fields (e : ClaimEntry) :
    e.renew.number = e.number ∧ e.renew.master = e.master ∧ e.renew.set = e.set ∧ e.renew.leasePeriod = e.leasePeriod ∧
      e.renew.inForce = e.inForce := by
  rcases e with ⟨n, m, set, lp, _ | _ | _⟩ <;> exact ⟨rfl, rfl, rfl, rfl, rfl⟩

/-- A renewed entry in force has its whole lease before it (R19). -/
theorem ClaimEntry.renew_lease {e : ClaimEntry} (h : e.inForce = true) : e.renew.leaseRemaining = some e.leasePeriod := by
  rcases e with ⟨n, m, set, lp, _ | _ | _⟩
  · exact absurd h (by simp [ClaimEntry.inForce])
  · rfl
  · rfl

/-! ## Grant evaluation -/

/-- What one visit can do: nothing, a refusal for the digest, or a grant (R12 to R14). -/
theorem State.visit_cases (s : State) (p : Pos) :
    s.visit p = s ∨
      ∃ e, s.entry p = some e ∧ e.isPending = true ∧ s.grantable p e = true ∧
        (s.visit p = s.refuseClaim p e .digest ∨ s.visit p = s.grant p e) := by
  unfold State.visit
  cases hp : s.entry p with
  | none => exact Or.inl rfl
  | some e =>
    rcases e with ⟨n, m, set, lp, ⟨wait, expected⟩ | _ | _⟩
    · by_cases hg : s.grantable p ⟨n, m, set, lp, .pending wait expected⟩ = true
      · refine Or.inr ⟨_, rfl, rfl, hg, ?_⟩
        simp only [hg, if_true]
        split
        · exact Or.inl rfl
        · exact Or.inr rfl
      · exact Or.inl (by simp only [hg]; rfl)
    · exact Or.inl rfl
    · exact Or.inl rfl

/-- Any projection that the claim table, appends and notices leave alone is left alone by grant evaluation. -/
theorem State.grantEvaluation_keep {α : Type} (g : State → α) (hclaims : ∀ s t, g (State.setClaims s t) = g s)
    (happ : ∀ s b, g (State.append b s) = g s) (hraise : ∀ s m k, g (State.raise m k s) = g s) (s : State) :
    g s.grantEvaluation = g s := by
  unfold State.grantEvaluation
  generalize s.claims.order = ps
  induction ps generalizing s with
  | nil => rfl
  | cons p rest ih =>
    rw [List.foldl_cons, ih]
    rcases s.visit_cases p with h | ⟨e, -, -, -, h | h⟩ <;> rw [h]
    · simp only [State.refuseClaim, happ, hraise, hclaims]
    · simp only [State.grant, happ, hraise, hclaims]

/-- A property that each refusal and each grant of the walk keeps is kept by grant evaluation. -/
theorem State.grantEvaluation_induct {P : State → Prop}
    (hrefuse : ∀ s p e, P s → s.entry p = some e → e.isPending = true → s.grantable p e = true → P (s.refuseClaim p e .digest))
    (hgrant : ∀ s p e, P s → s.entry p = some e → e.isPending = true → s.grantable p e = true → P (s.grant p e)) (s : State)
    (hs : P s) : P s.grantEvaluation := by
  unfold State.grantEvaluation
  generalize s.claims.order = ps
  induction ps generalizing s with
  | nil => exact hs
  | cons p rest ih =>
    rw [List.foldl_cons]
    apply ih
    rcases s.visit_cases p with h | ⟨e, he, hp, hg, h | h⟩ <;> rw [h]
    · exact hs
    · exact hrefuse s p e hs he hp hg
    · exact hgrant s p e hs he hp hg

@[simp] theorem State.grantEvaluation_channels (s : State) : s.grantEvaluation.channels = s.channels :=
  State.grantEvaluation_keep State.channels (fun _ _ => rfl) (fun _ _ => rfl) (fun _ _ _ => rfl) s

@[simp] theorem State.grantEvaluation_ports (s : State) : s.grantEvaluation.ports = s.ports :=
  State.grantEvaluation_keep State.ports (fun _ _ => rfl) (fun _ _ => rfl) (fun _ _ _ => rfl) s

@[simp] theorem State.grantEvaluation_timeTag (s : State) : s.grantEvaluation.timeTag = s.timeTag :=
  State.grantEvaluation_keep State.timeTag (fun _ _ => rfl) (fun _ _ => rfl) (fun _ _ _ => rfl) s

@[simp] theorem State.grantEvaluation_pending (s : State) : s.grantEvaluation.pending = s.pending :=
  State.grantEvaluation_keep State.pending (fun _ _ => rfl) (fun _ _ => rfl) (fun _ _ _ => rfl) s

@[simp] theorem State.grantEvaluation_inReset (s : State) : s.grantEvaluation.inReset = s.inReset :=
  State.grantEvaluation_keep State.inReset (fun _ _ => rfl) (fun _ _ => rfl) (fun _ _ _ => rfl) s

@[simp] theorem State.grantEvaluation_trg0 (s : State) : s.grantEvaluation.trg0 = s.trg0 :=
  State.grantEvaluation_keep State.trg0 (fun _ _ => rfl) (fun _ _ => rfl) (fun _ _ _ => rfl) s

@[simp] theorem State.grantEvaluation_trg1 (s : State) : s.grantEvaluation.trg1 = s.trg1 :=
  State.grantEvaluation_keep State.trg1 (fun _ _ => rfl) (fun _ _ => rfl) (fun _ _ _ => rfl) s

/-- Grant evaluation with an empty pending order changes nothing (R11). -/
theorem State.grantEvaluation_empty {s : State} (h : s.claims.order = []) : s.grantEvaluation = s := by
  simp [State.grantEvaluation, h]

/-- The entry at a position after a grant: the granted one at its own position, and no other changed (R13). -/
theorem State.grant_entry (s : State) (p q : Pos) (e : ClaimEntry) :
    (s.grant p e).entry q = if q = p then some { e with state := .held e.leasePeriod s.timeTag } else s.entry q := by
  show (s.claims.entries.set p _)[q] = _
  by_cases h : q = p
  · subst h; simp
  · rw [if_neg h]
    simpa [State.entry] using Vector.getElem_set_ne p.isLt q.isLt (fun hv => h (Fin.ext hv.symm))

/-- The entry at a position after a refusal: none at its own position, and no other changed (R14, R17). -/
theorem State.refuseClaim_entry (s : State) (p q : Pos) (e : ClaimEntry) (reason : RefuseReason) :
    (s.refuseClaim p e reason).entry q = if q = p then none else s.entry q := by
  show (s.claims.entries.set p _)[q] = _
  by_cases h : q = p
  · subst h; simp
  · rw [if_neg h]
    simpa [State.entry] using Vector.getElem_set_ne p.isLt q.isLt (fun hv => h (Fin.ext hv.symm))

/-- What grant evaluation can leave of an entry: the entry as it was, the entry granted, or none (R12 to R14). -/
theorem State.grantEvaluation_entry {s : State} {p : Pos} {e : ClaimEntry} (h : s.entry p = some e) :
    s.grantEvaluation.entry p = some e ∨
      s.grantEvaluation.entry p = some { e with state := .held e.leasePeriod s.timeTag } ∨ s.grantEvaluation.entry p = none := by
  refine (State.grantEvaluation_induct
    (P := fun t => t.timeTag = s.timeTag ∧
      (t.entry p = some e ∨ t.entry p = some { e with state := .held e.leasePeriod s.timeTag } ∨ t.entry p = none))
    ?_ ?_ s ⟨rfl, .inl h⟩).2
  · rintro t q f ⟨ht, hp⟩ - - -
    refine ⟨ht, ?_⟩
    rw [State.refuseClaim_entry]
    split
    · exact .inr (.inr rfl)
    · exact hp
  · rintro t q f ⟨ht, hp⟩ hq hpend -
    refine ⟨ht, ?_⟩
    rw [State.grant_entry, ht]
    split
    · rename_i hpq
      subst hpq
      rcases hp with hp | hp | hp <;> rw [hp] at hq
      · cases hq; exact .inr (.inl rfl)
      · cases hq; exact .inr (.inl rfl)
      · cases hq
    · exact hp

/-! ## Frame ends and requests -/

/-- The frame end of a port is judged by the bytes, which the end of the frame keeps. -/
@[simp] theorem Port.endFrame_frameError (p : Port) : p.endFrame.frameError = p.frameError := rfl

/-- A frame end is named only while a frame is in progress and the part is not held in reset (R170, R186). -/
theorem State.frameEnd_some {s : State} {m : Master} {i : Instr} (h : s.frameEnd m = some i) :
    s.inReset = false ∧ (s.port m).inProgress = true ∧
      ((∃ k, (s.port m).frameError = some k) ∧ i = .frameError m ∨
        (s.port m).frameError = none ∧ i = decodeFrame m (s.port m).bytes) := by
  unfold State.frameEnd at h
  split at h
  · exact absurd h (by simp)
  · rename_i hr
    split at h
    · rename_i hp
      refine ⟨by simpa using hr, hp, ?_⟩
      split at h
      · rename_i k hk
        exact Or.inl ⟨⟨k, hk⟩, (Option.some.inj h).symm⟩
      · rename_i hk
        exact Or.inr ⟨hk, (Option.some.inj h).symm⟩
    · exact absurd h (by simp)

/-- A frame-end command that names the frame end at hand is taken after the flag is cleared. -/
theorem atFrameEnd_taken {i : Instr} {m : Master} {take : State → State} {s : State} (h : s.frameEnd m = some i) :
    atFrameEnd i m take s = .next (take (s.endFrame m)) := by simp [atFrameEnd, h]

/-- One that names another changes nothing (log 1). -/
theorem atFrameEnd_absent {i : Instr} {m : Master} {take : State → State} {s : State} (h : s.frameEnd m ≠ some i) :
    atFrameEnd i m take s = .next s := by simp [atFrameEnd, h]

/-- A request that passes the head of the check order is taken or refused by its own rule. -/
theorem request_passes {i : Instr} {m : Master} {take : State → State × Answer} {s : State} (h : PassesHead i m s) :
    request i m take s =
      .next ((take (s.endFrame m)).1.respond m (i.requestCode.getD 0) (take (s.endFrame m)).2) := by
  obtain ⟨hf, hp, hb⟩ := h
  have hj : judged i m take (s.endFrame m) = take (s.endFrame m) := by
    unfold judged
    cases hbar : i.barrable
    · simp [hp]
    · simp [hp, hb hbar]
  simp [request, answered, atFrameEnd_taken hf, hj]

/-- A malformed request is answered BAD_PARAMETER. -/
theorem request_malformed {i : Instr} {m : Master} {take : State → State × Answer} {s : State} (hf : s.frameEnd m = some i)
    (hp : i.parametersOk = false) :
    request i m take s = .next ((s.endFrame m).respond m (i.requestCode.getD 0) (.refuse .badParameter)) := by
  simp [request, answered, atFrameEnd_taken hf, judged, hp]

/-- A well-formed request that is not exempt is answered BARRED to a BARRED master. -/
theorem request_barred {i : Instr} {m : Master} {take : State → State × Answer} {s : State} (hf : s.frameEnd m = some i)
    (hp : i.parametersOk = true) (hi : i.barrable = true) (hb : s.barred m = true) :
    request i m take s = .next ((s.endFrame m).respond m (i.requestCode.getD 0) (.refuse .barred)) := by
  simp [request, answered, atFrameEnd_taken hf, judged, hp, hi, hb]

/-- What a request can do: nothing, a refusal by the head of the check order, or what its own rule gives. -/
theorem request_cases (i : Instr) (m : Master) (take : State → State × Answer) (s : State) :
    request i m take s = .next s ∨
      (∃ status, request i m take s = .next ((s.endFrame m).respond m (i.requestCode.getD 0) (.refuse status))) ∨
        PassesHead i m s ∧
          request i m take s =
            .next ((take (s.endFrame m)).1.respond m (i.requestCode.getD 0) (take (s.endFrame m)).2) := by
  by_cases hf : s.frameEnd m = some i
  · cases hp : i.parametersOk
    · exact Or.inr (Or.inl ⟨_, request_malformed hf hp⟩)
    · by_cases hb : i.barrable = true ∧ s.barred m = true
      · exact Or.inr (Or.inl ⟨_, request_barred hf hp hb.1 hb.2⟩)
      · have h : PassesHead i m s := ⟨hf, hp, fun h => by
          cases hx : s.barred m
          · rfl
          · exact absurd ⟨h, hx⟩ hb⟩
        exact Or.inr (Or.inr ⟨h, request_passes h⟩)
  · exact Or.inl (atFrameEnd_absent hf)

end Sys2Proof.Machine
end

