-- ==== Sys2Proof/Laws/Channel.lean ====
section
/-!
SUPPORT. What the operations on one channel unit leave in each of its fields, and the induction over a chain of step ends.
-/

namespace Sys2Proof.Machine

/-! ## Fields of a channel unit that an operation of the drive keeps -/

@[simp] theorem ChannelUnit.startCheck_config (o : CheckOrigin) (u : ChannelUnit) : (u.startCheck o).config = u.config := rfl
@[simp] theorem ChannelUnit.startCheck_digest (o : CheckOrigin) (u : ChannelUnit) : (u.startCheck o).digest = u.digest := rfl
@[simp] theorem ChannelUnit.startCheck_faultLatch (o : CheckOrigin) (u : ChannelUnit) : (u.startCheck o).faultLatch = u.faultLatch := rfl
@[simp] theorem ChannelUnit.startCheck_lastCheck (o : CheckOrigin) (u : ChannelUnit) : (u.startCheck o).lastCheck = u.lastCheck := rfl
@[simp] theorem ChannelUnit.startCheck_slots (o : CheckOrigin) (u : ChannelUnit) : (u.startCheck o).slots = u.slots := rfl
@[simp] theorem ChannelUnit.startCheck_descriptor (o : CheckOrigin) (u : ChannelUnit) : (u.startCheck o).descriptor = u.descriptor := rfl
@[simp] theorem ChannelUnit.startCheck_mark0 (o : CheckOrigin) (u : ChannelUnit) : (u.startCheck o).mark0 = u.mark0 := rfl
@[simp] theorem ChannelUnit.startCheck_mark1 (o : CheckOrigin) (u : ChannelUnit) : (u.startCheck o).mark1 = u.mark1 := rfl
@[simp] theorem ChannelUnit.startCheck_activeStage (o : CheckOrigin) (u : ChannelUnit) : (u.startCheck o).activeStage = u.activeStage := rfl
@[simp] theorem ChannelUnit.startCheck_list (o : CheckOrigin) (u : ChannelUnit) : (u.startCheck o).list = u.list := rfl

@[simp] theorem ChannelUnit.endMove_config (o : MoveOrigin) (required : Bool) (u : ChannelUnit) : (u.endMove o required).config = u.config := by
  unfold ChannelUnit.endMove; split <;> rfl
@[simp] theorem ChannelUnit.endMove_digest (o : MoveOrigin) (required : Bool) (u : ChannelUnit) : (u.endMove o required).digest = u.digest := by
  unfold ChannelUnit.endMove; split <;> rfl
@[simp] theorem ChannelUnit.endMove_faultLatch (o : MoveOrigin) (required : Bool) (u : ChannelUnit) : (u.endMove o required).faultLatch = u.faultLatch := by
  unfold ChannelUnit.endMove; split <;> rfl
@[simp] theorem ChannelUnit.endMove_lastCheck (o : MoveOrigin) (required : Bool) (u : ChannelUnit) : (u.endMove o required).lastCheck = u.lastCheck := by
  unfold ChannelUnit.endMove; split <;> rfl
@[simp] theorem ChannelUnit.endMove_slots (o : MoveOrigin) (required : Bool) (u : ChannelUnit) : (u.endMove o required).slots = u.slots := by
  unfold ChannelUnit.endMove; split <;> rfl
@[simp] theorem ChannelUnit.endMove_descriptor (o : MoveOrigin) (required : Bool) (u : ChannelUnit) : (u.endMove o required).descriptor = u.descriptor := by
  unfold ChannelUnit.endMove; split <;> rfl
@[simp] theorem ChannelUnit.endMove_mark0 (o : MoveOrigin) (required : Bool) (u : ChannelUnit) : (u.endMove o required).mark0 = u.mark0 := by
  unfold ChannelUnit.endMove; split <;> rfl
@[simp] theorem ChannelUnit.endMove_mark1 (o : MoveOrigin) (required : Bool) (u : ChannelUnit) : (u.endMove o required).mark1 = u.mark1 := by
  unfold ChannelUnit.endMove; split <;> rfl
@[simp] theorem ChannelUnit.endMove_activeStage (o : MoveOrigin) (required : Bool) (u : ChannelUnit) : (u.endMove o required).activeStage = u.activeStage := by
  unfold ChannelUnit.endMove; split <;> rfl
@[simp] theorem ChannelUnit.endMove_list (o : MoveOrigin) (required : Bool) (u : ChannelUnit) : (u.endMove o required).list = u.list := by
  unfold ChannelUnit.endMove; split <;> rfl

@[simp] theorem ChannelUnit.startMove_config (target : Word16) (o : MoveOrigin) (rate : Word16) (required : Bool) (u : ChannelUnit) : (u.startMove target o rate required).config = u.config := by
  unfold ChannelUnit.startMove; simp only; split <;> simp
@[simp] theorem ChannelUnit.startMove_digest (target : Word16) (o : MoveOrigin) (rate : Word16) (required : Bool) (u : ChannelUnit) : (u.startMove target o rate required).digest = u.digest := by
  unfold ChannelUnit.startMove; simp only; split <;> simp
@[simp] theorem ChannelUnit.startMove_faultLatch (target : Word16) (o : MoveOrigin) (rate : Word16) (required : Bool) (u : ChannelUnit) : (u.startMove target o rate required).faultLatch = u.faultLatch := by
  unfold ChannelUnit.startMove; simp only; split <;> simp
@[simp] theorem ChannelUnit.startMove_lastCheck (target : Word16) (o : MoveOrigin) (rate : Word16) (required : Bool) (u : ChannelUnit) : (u.startMove target o rate required).lastCheck = u.lastCheck := by
  unfold ChannelUnit.startMove; simp only; split <;> simp
@[simp] theorem ChannelUnit.startMove_slots (target : Word16) (o : MoveOrigin) (rate : Word16) (required : Bool) (u : ChannelUnit) : (u.startMove target o rate required).slots = u.slots := by
  unfold ChannelUnit.startMove; simp only; split <;> simp
@[simp] theorem ChannelUnit.startMove_descriptor (target : Word16) (o : MoveOrigin) (rate : Word16) (required : Bool) (u : ChannelUnit) : (u.startMove target o rate required).descriptor = u.descriptor := by
  unfold ChannelUnit.startMove; simp only; split <;> simp
@[simp] theorem ChannelUnit.startMove_mark0 (target : Word16) (o : MoveOrigin) (rate : Word16) (required : Bool) (u : ChannelUnit) : (u.startMove target o rate required).mark0 = u.mark0 := by
  unfold ChannelUnit.startMove; simp only; split <;> simp
@[simp] theorem ChannelUnit.startMove_mark1 (target : Word16) (o : MoveOrigin) (rate : Word16) (required : Bool) (u : ChannelUnit) : (u.startMove target o rate required).mark1 = u.mark1 := by
  unfold ChannelUnit.startMove; simp only; split <;> simp
@[simp] theorem ChannelUnit.startMove_activeStage (target : Word16) (o : MoveOrigin) (rate : Word16) (required : Bool) (u : ChannelUnit) : (u.startMove target o rate required).activeStage = u.activeStage := by
  unfold ChannelUnit.startMove; simp only; split <;> simp
@[simp] theorem ChannelUnit.startMove_list (target : Word16) (o : MoveOrigin) (rate : Word16) (required : Bool) (u : ChannelUnit) : (u.startMove target o rate required).list = u.list := by
  unfold ChannelUnit.startMove; simp only; split <;> simp

@[simp] theorem ChannelUnit.stopMove_config (u : ChannelUnit) : (u.stopMove).config = u.config := by
  unfold ChannelUnit.stopMove; split <;> rfl
@[simp] theorem ChannelUnit.stopMove_digest (u : ChannelUnit) : (u.stopMove).digest = u.digest := by
  unfold ChannelUnit.stopMove; split <;> rfl
@[simp] theorem ChannelUnit.stopMove_faultLatch (u : ChannelUnit) : (u.stopMove).faultLatch = u.faultLatch := by
  unfold ChannelUnit.stopMove; split <;> rfl
@[simp] theorem ChannelUnit.stopMove_lastCheck (u : ChannelUnit) : (u.stopMove).lastCheck = u.lastCheck := by
  unfold ChannelUnit.stopMove; split <;> rfl
@[simp] theorem ChannelUnit.stopMove_slots (u : ChannelUnit) : (u.stopMove).slots = u.slots := by
  unfold ChannelUnit.stopMove; split <;> rfl
@[simp] theorem ChannelUnit.stopMove_descriptor (u : ChannelUnit) : (u.stopMove).descriptor = u.descriptor := by
  unfold ChannelUnit.stopMove; split <;> rfl
@[simp] theorem ChannelUnit.stopMove_mark0 (u : ChannelUnit) : (u.stopMove).mark0 = u.mark0 := by
  unfold ChannelUnit.stopMove; split <;> rfl
@[simp] theorem ChannelUnit.stopMove_mark1 (u : ChannelUnit) : (u.stopMove).mark1 = u.mark1 := by
  unfold ChannelUnit.stopMove; split <;> rfl
@[simp] theorem ChannelUnit.stopMove_activeStage (u : ChannelUnit) : (u.stopMove).activeStage = u.activeStage := by
  unfold ChannelUnit.stopMove; split <;> rfl
@[simp] theorem ChannelUnit.stopMove_list (u : ChannelUnit) : (u.stopMove).list = u.list := by
  unfold ChannelUnit.stopMove; split <;> rfl

@[simp] theorem ChannelUnit.cancelCheck_config (u : ChannelUnit) : (u.cancelCheck).config = u.config := by
  unfold ChannelUnit.cancelCheck; split <;> rfl
@[simp] theorem ChannelUnit.cancelCheck_digest (u : ChannelUnit) : (u.cancelCheck).digest = u.digest := by
  unfold ChannelUnit.cancelCheck; split <;> rfl
@[simp] theorem ChannelUnit.cancelCheck_faultLatch (u : ChannelUnit) : (u.cancelCheck).faultLatch = u.faultLatch := by
  unfold ChannelUnit.cancelCheck; split <;> rfl
@[simp] theorem ChannelUnit.cancelCheck_lastCheck (u : ChannelUnit) : (u.cancelCheck).lastCheck = u.lastCheck := by
  unfold ChannelUnit.cancelCheck; split <;> rfl
@[simp] theorem ChannelUnit.cancelCheck_slots (u : ChannelUnit) : (u.cancelCheck).slots = u.slots := by
  unfold ChannelUnit.cancelCheck; split <;> rfl
@[simp] theorem ChannelUnit.cancelCheck_descriptor (u : ChannelUnit) : (u.cancelCheck).descriptor = u.descriptor := by
  unfold ChannelUnit.cancelCheck; split <;> rfl
@[simp] theorem ChannelUnit.cancelCheck_mark0 (u : ChannelUnit) : (u.cancelCheck).mark0 = u.mark0 := by
  unfold ChannelUnit.cancelCheck; split <;> rfl
@[simp] theorem ChannelUnit.cancelCheck_mark1 (u : ChannelUnit) : (u.cancelCheck).mark1 = u.mark1 := by
  unfold ChannelUnit.cancelCheck; split <;> rfl
@[simp] theorem ChannelUnit.cancelCheck_activeStage (u : ChannelUnit) : (u.cancelCheck).activeStage = u.activeStage := by
  unfold ChannelUnit.cancelCheck; split <;> rfl
@[simp] theorem ChannelUnit.cancelCheck_list (u : ChannelUnit) : (u.cancelCheck).list = u.list := by
  unfold ChannelUnit.cancelCheck; split <;> rfl

@[simp] theorem ChannelUnit.applyAction_config (a : Action) (u : ChannelUnit) : (u.applyAction a).config = u.config := by
  unfold ChannelUnit.applyAction; cases a <;> simp
@[simp] theorem ChannelUnit.applyAction_digest (a : Action) (u : ChannelUnit) : (u.applyAction a).digest = u.digest := by
  unfold ChannelUnit.applyAction; cases a <;> simp
@[simp] theorem ChannelUnit.applyAction_faultLatch (a : Action) (u : ChannelUnit) : (u.applyAction a).faultLatch = u.faultLatch := by
  unfold ChannelUnit.applyAction; cases a <;> simp
@[simp] theorem ChannelUnit.applyAction_lastCheck (a : Action) (u : ChannelUnit) : (u.applyAction a).lastCheck = u.lastCheck := by
  unfold ChannelUnit.applyAction; cases a <;> simp
@[simp] theorem ChannelUnit.applyAction_slots (a : Action) (u : ChannelUnit) : (u.applyAction a).slots = u.slots := by
  unfold ChannelUnit.applyAction; cases a <;> simp
@[simp] theorem ChannelUnit.applyAction_descriptor (a : Action) (u : ChannelUnit) : (u.applyAction a).descriptor = u.descriptor := by
  unfold ChannelUnit.applyAction; cases a <;> simp
@[simp] theorem ChannelUnit.applyAction_mark0 (a : Action) (u : ChannelUnit) : (u.applyAction a).mark0 = u.mark0 := by
  unfold ChannelUnit.applyAction; cases a <;> simp
@[simp] theorem ChannelUnit.applyAction_mark1 (a : Action) (u : ChannelUnit) : (u.applyAction a).mark1 = u.mark1 := by
  unfold ChannelUnit.applyAction; cases a <;> simp
@[simp] theorem ChannelUnit.applyAction_activeStage (a : Action) (u : ChannelUnit) : (u.applyAction a).activeStage = u.activeStage := by
  unfold ChannelUnit.applyAction; cases a <;> simp
@[simp] theorem ChannelUnit.applyAction_list (a : Action) (u : ChannelUnit) : (u.applyAction a).list = u.list := by
  unfold ChannelUnit.applyAction; cases a <;> simp

@[simp] theorem ChannelUnit.retry_config (ck : Check) (v : Verdict) (u : ChannelUnit) : (u.retry ck v).config = u.config := rfl
@[simp] theorem ChannelUnit.retry_digest (ck : Check) (v : Verdict) (u : ChannelUnit) : (u.retry ck v).digest = u.digest := rfl
@[simp] theorem ChannelUnit.retry_faultLatch (ck : Check) (v : Verdict) (u : ChannelUnit) : (u.retry ck v).faultLatch = u.faultLatch := rfl
@[simp] theorem ChannelUnit.retry_lastCheck (ck : Check) (v : Verdict) (u : ChannelUnit) : (u.retry ck v).lastCheck = u.lastCheck := rfl
@[simp] theorem ChannelUnit.retry_slots (ck : Check) (v : Verdict) (u : ChannelUnit) : (u.retry ck v).slots = u.slots := rfl
@[simp] theorem ChannelUnit.retry_descriptor (ck : Check) (v : Verdict) (u : ChannelUnit) : (u.retry ck v).descriptor = u.descriptor := rfl
@[simp] theorem ChannelUnit.retry_mark0 (ck : Check) (v : Verdict) (u : ChannelUnit) : (u.retry ck v).mark0 = u.mark0 := rfl
@[simp] theorem ChannelUnit.retry_mark1 (ck : Check) (v : Verdict) (u : ChannelUnit) : (u.retry ck v).mark1 = u.mark1 := rfl
@[simp] theorem ChannelUnit.retry_list (ck : Check) (v : Verdict) (u : ChannelUnit) : (u.retry ck v).list = u.list := rfl

@[simp] theorem ChannelUnit.abortList_config (u : ChannelUnit) : (u.abortList).config = u.config := by
  unfold ChannelUnit.abortList; split <;> rfl
@[simp] theorem ChannelUnit.abortList_digest (u : ChannelUnit) : (u.abortList).digest = u.digest := by
  unfold ChannelUnit.abortList; split <;> rfl
@[simp] theorem ChannelUnit.abortList_faultLatch (u : ChannelUnit) : (u.abortList).faultLatch = u.faultLatch := by
  unfold ChannelUnit.abortList; split <;> rfl
@[simp] theorem ChannelUnit.abortList_lastCheck (u : ChannelUnit) : (u.abortList).lastCheck = u.lastCheck := by
  unfold ChannelUnit.abortList; split <;> rfl
@[simp] theorem ChannelUnit.abortList_slots (u : ChannelUnit) : (u.abortList).slots = u.slots := by
  unfold ChannelUnit.abortList; split <;> rfl
@[simp] theorem ChannelUnit.abortList_descriptor (u : ChannelUnit) : (u.abortList).descriptor = u.descriptor := by
  unfold ChannelUnit.abortList; split <;> rfl
@[simp] theorem ChannelUnit.abortList_mark0 (u : ChannelUnit) : (u.abortList).mark0 = u.mark0 := by
  unfold ChannelUnit.abortList; split <;> rfl
@[simp] theorem ChannelUnit.abortList_mark1 (u : ChannelUnit) : (u.abortList).mark1 = u.mark1 := by
  unfold ChannelUnit.abortList; split <;> rfl
@[simp] theorem ChannelUnit.abortList_activeStage (u : ChannelUnit) : (u.abortList).activeStage = u.activeStage := by
  unfold ChannelUnit.abortList; split <;> rfl

@[simp] theorem ChannelUnit.holdOrder_config (u : ChannelUnit) : (u.holdOrder).config = u.config := by
  unfold ChannelUnit.holdOrder; simp
@[simp] theorem ChannelUnit.holdOrder_digest (u : ChannelUnit) : (u.holdOrder).digest = u.digest := by
  unfold ChannelUnit.holdOrder; simp
@[simp] theorem ChannelUnit.holdOrder_faultLatch (u : ChannelUnit) : (u.holdOrder).faultLatch = u.faultLatch := by
  unfold ChannelUnit.holdOrder; simp
@[simp] theorem ChannelUnit.holdOrder_lastCheck (u : ChannelUnit) : (u.holdOrder).lastCheck = u.lastCheck := by
  unfold ChannelUnit.holdOrder; simp
@[simp] theorem ChannelUnit.holdOrder_slots (u : ChannelUnit) : (u.holdOrder).slots = u.slots := by
  unfold ChannelUnit.holdOrder; simp
@[simp] theorem ChannelUnit.holdOrder_descriptor (u : ChannelUnit) : (u.holdOrder).descriptor = u.descriptor := by
  unfold ChannelUnit.holdOrder; simp
@[simp] theorem ChannelUnit.holdOrder_mark0 (u : ChannelUnit) : (u.holdOrder).mark0 = u.mark0 := by
  unfold ChannelUnit.holdOrder; simp
@[simp] theorem ChannelUnit.holdOrder_mark1 (u : ChannelUnit) : (u.holdOrder).mark1 = u.mark1 := by
  unfold ChannelUnit.holdOrder; simp
@[simp] theorem ChannelUnit.holdOrder_activeStage (u : ChannelUnit) : (u.holdOrder).activeStage = u.activeStage := by
  unfold ChannelUnit.holdOrder; simp

@[simp] theorem ChannelUnit.revokeOrder_config (u : ChannelUnit) : (u.revokeOrder).config = u.config := by
  unfold ChannelUnit.revokeOrder; simp
@[simp] theorem ChannelUnit.revokeOrder_digest (u : ChannelUnit) : (u.revokeOrder).digest = u.digest := by
  unfold ChannelUnit.revokeOrder; simp
@[simp] theorem ChannelUnit.revokeOrder_faultLatch (u : ChannelUnit) : (u.revokeOrder).faultLatch = u.faultLatch := by
  unfold ChannelUnit.revokeOrder; simp
@[simp] theorem ChannelUnit.revokeOrder_lastCheck (u : ChannelUnit) : (u.revokeOrder).lastCheck = u.lastCheck := by
  unfold ChannelUnit.revokeOrder; simp
@[simp] theorem ChannelUnit.revokeOrder_slots (u : ChannelUnit) : (u.revokeOrder).slots = u.slots := by
  unfold ChannelUnit.revokeOrder; simp
@[simp] theorem ChannelUnit.revokeOrder_descriptor (u : ChannelUnit) : (u.revokeOrder).descriptor = u.descriptor := by
  unfold ChannelUnit.revokeOrder; simp
@[simp] theorem ChannelUnit.revokeOrder_mark0 (u : ChannelUnit) : (u.revokeOrder).mark0 = u.mark0 := by
  unfold ChannelUnit.revokeOrder; simp
@[simp] theorem ChannelUnit.revokeOrder_mark1 (u : ChannelUnit) : (u.revokeOrder).mark1 = u.mark1 := by
  unfold ChannelUnit.revokeOrder; simp
@[simp] theorem ChannelUnit.revokeOrder_activeStage (u : ChannelUnit) : (u.revokeOrder).activeStage = u.activeStage := by
  unfold ChannelUnit.revokeOrder; simp

@[simp] theorem ChannelUnit.releaseOrder_config (mode : ReleaseMode) (u : ChannelUnit) : (u.releaseOrder mode).config = u.config := by
  unfold ChannelUnit.releaseOrder; cases mode <;> simp
@[simp] theorem ChannelUnit.releaseOrder_digest (mode : ReleaseMode) (u : ChannelUnit) : (u.releaseOrder mode).digest = u.digest := by
  unfold ChannelUnit.releaseOrder; cases mode <;> simp
@[simp] theorem ChannelUnit.releaseOrder_faultLatch (mode : ReleaseMode) (u : ChannelUnit) : (u.releaseOrder mode).faultLatch = u.faultLatch := by
  unfold ChannelUnit.releaseOrder; cases mode <;> simp
@[simp] theorem ChannelUnit.releaseOrder_lastCheck (mode : ReleaseMode) (u : ChannelUnit) : (u.releaseOrder mode).lastCheck = u.lastCheck := by
  unfold ChannelUnit.releaseOrder; cases mode <;> simp
@[simp] theorem ChannelUnit.releaseOrder_slots (mode : ReleaseMode) (u : ChannelUnit) : (u.releaseOrder mode).slots = u.slots := by
  unfold ChannelUnit.releaseOrder; cases mode <;> simp
@[simp] theorem ChannelUnit.releaseOrder_descriptor (mode : ReleaseMode) (u : ChannelUnit) : (u.releaseOrder mode).descriptor = u.descriptor := by
  unfold ChannelUnit.releaseOrder; cases mode <;> simp
@[simp] theorem ChannelUnit.releaseOrder_mark0 (mode : ReleaseMode) (u : ChannelUnit) : (u.releaseOrder mode).mark0 = u.mark0 := by
  unfold ChannelUnit.releaseOrder; cases mode <;> simp
@[simp] theorem ChannelUnit.releaseOrder_mark1 (mode : ReleaseMode) (u : ChannelUnit) : (u.releaseOrder mode).mark1 = u.mark1 := by
  unfold ChannelUnit.releaseOrder; cases mode <;> simp
@[simp] theorem ChannelUnit.releaseOrder_activeStage (mode : ReleaseMode) (u : ChannelUnit) : (u.releaseOrder mode).activeStage = u.activeStage := by
  unfold ChannelUnit.releaseOrder; cases mode <;> simp

@[simp] theorem ChannelUnit.write_config (code rate : Word16) (u : ChannelUnit) : (u.write code rate).config = u.config := by
  unfold ChannelUnit.write; simp
@[simp] theorem ChannelUnit.write_digest (code rate : Word16) (u : ChannelUnit) : (u.write code rate).digest = u.digest := by
  unfold ChannelUnit.write; simp
@[simp] theorem ChannelUnit.write_faultLatch (code rate : Word16) (u : ChannelUnit) : (u.write code rate).faultLatch = u.faultLatch := by
  unfold ChannelUnit.write; simp
@[simp] theorem ChannelUnit.write_lastCheck (code rate : Word16) (u : ChannelUnit) : (u.write code rate).lastCheck = u.lastCheck := by
  unfold ChannelUnit.write; simp
@[simp] theorem ChannelUnit.write_slots (code rate : Word16) (u : ChannelUnit) : (u.write code rate).slots = u.slots := by
  unfold ChannelUnit.write; simp
@[simp] theorem ChannelUnit.write_descriptor (code rate : Word16) (u : ChannelUnit) : (u.write code rate).descriptor = u.descriptor := by
  unfold ChannelUnit.write; simp
@[simp] theorem ChannelUnit.write_mark0 (code rate : Word16) (u : ChannelUnit) : (u.write code rate).mark0 = u.mark0 := by
  unfold ChannelUnit.write; simp
@[simp] theorem ChannelUnit.write_mark1 (code rate : Word16) (u : ChannelUnit) : (u.write code rate).mark1 = u.mark1 := by
  unfold ChannelUnit.write; simp
@[simp] theorem ChannelUnit.write_activeStage (code rate : Word16) (u : ChannelUnit) : (u.write code rate).activeStage = u.activeStage := by
  unfold ChannelUnit.write; simp
@[simp] theorem ChannelUnit.write_list (code rate : Word16) (u : ChannelUnit) : (u.write code rate).list = u.list := by
  unfold ChannelUnit.write; simp

/-! ## Moves and orders -/

/-- The end of a move is a steady drive, or a check of the move's own origin; the code stays. -/
theorem ChannelUnit.endMove_cases (o : MoveOrigin) (required : Bool) (u : ChannelUnit) :
    (u.endMove o required).code = u.code ∧
      ((u.endMove o required).drive = .steady ∨
        required = true ∧ o = .write ∧ u.endMove o required = u.startCheck .write ∨
        required = true ∧ o = .step ∧ u.endMove o required = u.startCheck .step) := by
  cases required <;> cases o <;> simp [ChannelUnit.endMove, ChannelUnit.startCheck]

/-- A move ends in its starting event at its target, or runs (R76). -/
theorem ChannelUnit.startMove_cases (target : Word16) (o : MoveOrigin) (rate : Word16) (required : Bool) (u : ChannelUnit) :
    u.startMove target o rate required = { u with code := target }.endMove o required ∨
      effectiveRate rate u.config.range.maxRate ≠ 0 ∧ target ≠ u.code ∧
        u.startMove target o rate required =
          { u with
            drive := .moving
              { target := target, rate := effectiveRate rate u.config.range.maxRate, origin := o, checkRequired := required
                advanceDue := false } } := by
  by_cases h : effectiveRate rate u.config.range.maxRate = 0 ∨ target = u.code
  · exact Or.inl (by simp only [ChannelUnit.startMove, h, if_true])
  · refine Or.inr ⟨fun e => h (Or.inl e), fun e => h (Or.inr e), ?_⟩
    simp only [ChannelUnit.startMove, h, if_false]

/-- An aborted list is EMPTY or LOADED. -/
@[simp] theorem ChannelUnit.abortList_inactive (u : ChannelUnit) : u.abortList.list.active = false := by
  unfold ChannelUnit.abortList
  split
  · rfl
  · rename_i h; simpa using h

/-- No check is in flight once it is cancelled. -/
theorem ChannelUnit.cancelCheck_drive (u : ChannelUnit) :
    u.cancelCheck.drive = .steady ∨ ∃ mv, u.drive = .moving mv ∧ u.cancelCheck.drive = .moving mv := by
  unfold ChannelUnit.cancelCheck
  cases h : u.drive <;> simp [h]

/-- An action leaves the drive steady, or on a fallback move to the fallback code (R92, R94), when no check is in flight. -/
theorem ChannelUnit.applyAction_drive (a : Action) {u : ChannelUnit} (h : ∀ ck, u.drive ≠ .checking ck) :
    (u.applyAction a).drive = .steady ∨
      ∃ mv, (u.applyAction a).drive = .moving mv ∧ mv.origin = .fallback ∧ mv.target = u.config.range.fallback ∧
        mv.checkRequired = false := by
  cases a
  · refine Or.inl ?_
    show u.stopMove.drive = .steady
    unfold ChannelUnit.stopMove
    cases hd : u.drive with
    | steady => simp [hd]
    | moving mv => rfl
    | checking ck => exact absurd hd (h ck)
  · exact Or.inl rfl
  · show (u.startMove u.config.range.fallback .fallback 0 false).drive = .steady ∨ _
    rcases u.startMove_cases u.config.range.fallback .fallback 0 false with e | ⟨-, -, e⟩
    · exact Or.inl (by rw [e]; rfl)
    · exact Or.inr ⟨_, congrArg ChannelUnit.drive e, rfl, rfl, rfl⟩

/-- What an order leaves: an inactive list, and a drive that is steady or on a fallback move to the fallback code (R95 to R97). -/
theorem ChannelUnit.revokeOrder_spec (u : ChannelUnit) :
    u.revokeOrder.list.active = false ∧
      (u.revokeOrder.drive = .steady ∨
        ∃ mv, u.revokeOrder.drive = .moving mv ∧ mv.origin = .fallback ∧
          mv.target = u.revokeOrder.config.range.fallback ∧ mv.checkRequired = false) := by
  refine ⟨by simp [ChannelUnit.revokeOrder], ?_⟩
  have h : ∀ ck, u.abortList.cancelCheck.drive ≠ .checking ck := by
    intro ck
    rcases u.abortList.cancelCheck_drive with e | ⟨mv, -, e⟩ <;> rw [e] <;> simp
  simpa [ChannelUnit.revokeOrder] using ChannelUnit.applyAction_drive u.config.policy.revokeAction h

/-- The same of a release order of mode HOLD. -/
theorem ChannelUnit.holdOrder_spec (u : ChannelUnit) : u.holdOrder.list.active = false ∧ u.holdOrder.drive = .steady :=
  ⟨u.abortList_inactive, rfl⟩

/-- An advance never passes the target (R77). -/
theorem advanceCode_between (code target rate : Word16) :
    (code ≤ advanceCode code target rate ∧ advanceCode code target rate ≤ target) ∨
      (target ≤ advanceCode code target rate ∧ advanceCode code target rate ≤ code) := by
  unfold advanceCode
  simp only [BitVec.le_def]
  split
  · left
    split
    · omega
    · rename_i h1 h2
      simp only [BitVec.toNat_sub, BitVec.toNat_add] at *
      omega
  · right
    split
    · omega
    · rename_i h1 h2
      simp only [BitVec.toNat_sub] at *
      omega

/-! ## Chains of step ends -/

/-- A property that one step's end keeps is kept by a whole chain of them (R119). -/
theorem ChannelUnit.endSteps_induct {P : ChannelUnit → Prop} (tag : Word32)
    (h : ∀ u r st, P u → u.endingStep = some (r, st) → P (u.endStep tag r st).1) (n : Nat) (u : ChannelUnit) (hu : P u) :
    P (u.endSteps tag n).1 := by
  induction n generalizing u with
  | zero => exact hu
  | succ n ih =>
    unfold ChannelUnit.endSteps
    cases he : u.endingStep with
    | none => exact hu
    | some x => exact ih _ (h u x.1 x.2 hu he)

/-- The same of the end of an event. -/
theorem ChannelUnit.finish_induct {P : ChannelUnit → Prop} (tag : Word32)
    (h : ∀ u r st, P u → u.endingStep = some (r, st) → P (u.endStep tag r st).1) (u : ChannelUnit) (hu : P u) :
    P (u.finish tag).1 := ChannelUnit.endSteps_induct tag h _ u hu

/-- A step that ends is the current one of a RUNNING list, in phase HOLD, its dwell met and its hold condition met (R119). -/
theorem ChannelUnit.endingStep_spec {u : ChannelUnit} {r : Runtime} {st : StepRecord} (h : u.endingStep = some (r, st)) :
    u.list = .running r ∧ u.slots[r.index] = some st ∧ r.phase = .hold ∧ r.dwellTimer = none ∧ r.holdMet st.hold = true := by
  unfold ChannelUnit.endingStep at h
  split at h
  · rename_i r' hl
    split at h
    · exact absurd h (by simp)
    · rename_i st' hs
      split at h
      · rename_i hc
        obtain ⟨rfl, rfl⟩ := Prod.mk.injEq .. ▸ Option.some.inj h
        exact ⟨hl, hs, hc.1, hc.2.1, hc.2.2⟩
      · exact absurd h (by simp)
  all_goals exact absurd h (by simp)

/-- Where no step's conditions are met, the end of the event changes nothing. -/
theorem ChannelUnit.finish_none {u : ChannelUnit} (tag : Word32) (h : u.endingStep = none) : u.finish tag = (u, []) := by
  unfold ChannelUnit.finish
  show ChannelUnit.endSteps tag (31 + 1) u = _
  simp only [ChannelUnit.endSteps, h]

/-- How many steps can still end in one event: the rest of the pass, and one more pass when this one began earlier (R131). -/
def stepsToCome (tag : Word32) (r : Runtime) : Nat := (if r.passStart = tag then 16 else 32) - r.index.val

/-- A step that starts keeps the index and the pass start of its runtime record. -/
theorem ChannelUnit.startStep_running {u : ChannelUnit} {tag : Word32} {r r' : Runtime} (h : (u.startStep tag r).list = .running r') :
    r'.index = r.index ∧ r'.passStart = r.passStart := by
  unfold ChannelUnit.startStep at h
  split at h
  · cases h
  · obtain rfl := ListState.running.inj h; exact ⟨rfl, rfl⟩

/-- A step that ends leaves none to end, or a current step with fewer to come. -/
theorem ChannelUnit.endStep_progress (tag : Word32) (r : Runtime) (st : StepRecord) (u : ChannelUnit) :
    (u.endStep tag r st).1.endingStep = none ∨
      ∃ r', (u.endStep tag r st).1.list = .running r' ∧ stepsToCome tag r' < stepsToCome tag r := by
  have pass : (u.endPass tag r).1.endingStep = none ∨
      ∃ r', (u.endPass tag r).1.list = .running r' ∧ stepsToCome tag r' < stepsToCome tag r := by
    have ended : (u.endList r).1.endingStep = none := by
      unfold ChannelUnit.endList; simp only
      split <;> simp [ChannelUnit.endingStep]
    unfold ChannelUnit.endPass
    split
    · unfold ChannelUnit.preparePass
      simp only
      split
      · rename_i hg
        rw [ChannelUnit.beginPass]
        have hne : r.passStart ≠ tag := by
          intro e
          rw [e] at hg
          have hp := u.descriptor.period.isLt
          simp only [gapAfter, BitVec.sub_self, BitVec.toNat_zero, Nat.sub_zero] at hg
          have hz := congrArg BitVec.toNat hg
          rw [BitVec.toNat_ofNat, Nat.mod_eq_of_lt (by omega)] at hz
          have hm : 1 ≤ max u.descriptor.period.toNat 1 := Nat.le_max_right _ _
          have h0 : (0 : Word16).toNat = 0 := rfl
          omega
        cases hl : (ChannelUnit.startStep tag { r with passCount := nextPassCount r.passCount, index := 0, passStart := tag } u).list with
        | running r' =>
          refine Or.inr ⟨r', rfl, ?_⟩
          obtain ⟨h1, h2⟩ := ChannelUnit.startStep_running hl
          have := r.index.isLt
          simp only [stepsToCome, h1, h2, if_true, if_neg hne]
          simp; omega
        | _ => exact Or.inl (by simp only [ChannelUnit.endingStep, hl])
      · exact Or.inl (by simp only [ChannelUnit.endingStep]; split <;> simp)
    · exact Or.inl ended
  unfold ChannelUnit.endStep
  simp only
  split
  · rename_i h
    split
    · cases hl : (ChannelUnit.startStep tag { r with index := ⟨r.index.val + 1, h⟩ } u).list with
      | running r' =>
        refine Or.inr ⟨r', rfl, ?_⟩
        obtain ⟨h1, h2⟩ := ChannelUnit.startStep_running hl
        simp only [stepsToCome, h1, h2]
        split <;> omega
      | _ => exact Or.inl (by simp only [ChannelUnit.endingStep, hl])
    · exact pass
  · exact pass

/-- No step that meets its end conditions is left after the chain of step ends of one event (R119). -/
theorem ChannelUnit.endSteps_ended (tag : Word32) (n : Nat) (u : ChannelUnit)
    (h : ∀ r st, u.endingStep = some (r, st) → stepsToCome tag r ≤ n) : (u.endSteps tag n).1.endingStep = none := by
  induction n generalizing u with
  | zero =>
    cases he : u.endingStep with
    | none => exact he
    | some x =>
      have := h x.1 x.2 he
      have hi := x.1.index.isLt
      simp only [stepsToCome] at this
      split at this <;> omega
  | succ n ih =>
    unfold ChannelUnit.endSteps
    cases he : u.endingStep with
    | none => exact he
    | some x =>
      simp only
      apply ih
      intro r st hr
      rcases u.endStep_progress tag x.1 x.2 with hn | ⟨r', hl, hlt⟩
      · rw [hn] at hr; cases hr
      · have hr' : r = r' := by
          have := (ChannelUnit.endingStep_spec hr).1
          rw [hl] at this; exact (ListState.running.inj this).symm
        have := h x.1 x.2 he
        subst hr'; omega

/-- No step that meets its end conditions is left standing by `finish` (R119). -/
theorem ChannelUnit.finish_ended (tag : Word32) (u : ChannelUnit) : (u.finish tag).1.endingStep = none :=
  ChannelUnit.endSteps_ended tag _ u (fun r _ _ => by
    simp only [stepsToCome, Config.chainBound]; split <;> omega)

@[simp] theorem ChannelUnit.useMark_config (tag : Word32) (hold : HoldOn) (u : ChannelUnit) :
    (u.useMark tag hold).config = u.config := by
  cases hold <;> simp only [ChannelUnit.useMark, HoldOn.line] <;> first | rfl | (split <;> rfl)
@[simp] theorem ChannelUnit.startStep_config (tag : Word32) (r : Runtime) (u : ChannelUnit) :
    (u.startStep tag r).config = u.config := by
  unfold ChannelUnit.startStep; split <;> simp
@[simp] theorem ChannelUnit.endList_config (r : Runtime) (u : ChannelUnit) : (u.endList r).1.config = u.config := by
  unfold ChannelUnit.endList; simp only; split <;> simp
@[simp] theorem ChannelUnit.preparePass_config (tag : Word32) (r : Runtime) (u : ChannelUnit) :
    (u.preparePass tag r).1.config = u.config := by
  unfold ChannelUnit.preparePass; simp only; split <;> simp [ChannelUnit.beginPass]
@[simp] theorem ChannelUnit.endPass_config (tag : Word32) (r : Runtime) (u : ChannelUnit) :
    (u.endPass tag r).1.config = u.config := by
  unfold ChannelUnit.endPass; split <;> simp
@[simp] theorem ChannelUnit.endStep_config (tag : Word32) (r : Runtime) (st : StepRecord) (u : ChannelUnit) :
    (u.endStep tag r st).1.config = u.config := by
  unfold ChannelUnit.endStep; simp only; split
  · split <;> simp
  · simp
@[simp] theorem ChannelUnit.finish_config (tag : Word32) (u : ChannelUnit) : (u.finish tag).1.config = u.config :=
  ChannelUnit.finish_induct (P := fun v => v.config = u.config) tag (fun v r st hv _ => by simpa using hv) u rfl

@[simp] theorem ChannelUnit.useMark_digest (tag : Word32) (hold : HoldOn) (u : ChannelUnit) :
    (u.useMark tag hold).digest = u.digest := by
  cases hold <;> simp only [ChannelUnit.useMark, HoldOn.line] <;> first | rfl | (split <;> rfl)
@[simp] theorem ChannelUnit.startStep_digest (tag : Word32) (r : Runtime) (u : ChannelUnit) :
    (u.startStep tag r).digest = u.digest := by
  unfold ChannelUnit.startStep; split <;> simp
@[simp] theorem ChannelUnit.endList_digest (r : Runtime) (u : ChannelUnit) : (u.endList r).1.digest = u.digest := by
  unfold ChannelUnit.endList; simp only; split <;> simp
@[simp] theorem ChannelUnit.preparePass_digest (tag : Word32) (r : Runtime) (u : ChannelUnit) :
    (u.preparePass tag r).1.digest = u.digest := by
  unfold ChannelUnit.preparePass; simp only; split <;> simp [ChannelUnit.beginPass]
@[simp] theorem ChannelUnit.endPass_digest (tag : Word32) (r : Runtime) (u : ChannelUnit) :
    (u.endPass tag r).1.digest = u.digest := by
  unfold ChannelUnit.endPass; split <;> simp
@[simp] theorem ChannelUnit.endStep_digest (tag : Word32) (r : Runtime) (st : StepRecord) (u : ChannelUnit) :
    (u.endStep tag r st).1.digest = u.digest := by
  unfold ChannelUnit.endStep; simp only; split
  · split <;> simp
  · simp
@[simp] theorem ChannelUnit.finish_digest (tag : Word32) (u : ChannelUnit) : (u.finish tag).1.digest = u.digest :=
  ChannelUnit.finish_induct (P := fun v => v.digest = u.digest) tag (fun v r st hv _ => by simpa using hv) u rfl

@[simp] theorem ChannelUnit.useMark_activeStage (tag : Word32) (hold : HoldOn) (u : ChannelUnit) :
    (u.useMark tag hold).activeStage = u.activeStage := by
  cases hold <;> simp only [ChannelUnit.useMark, HoldOn.line] <;> first | rfl | (split <;> rfl)
@[simp] theorem ChannelUnit.startStep_activeStage (tag : Word32) (r : Runtime) (u : ChannelUnit) :
    (u.startStep tag r).activeStage = u.activeStage := by
  unfold ChannelUnit.startStep; split <;> simp
@[simp] theorem ChannelUnit.endList_activeStage (r : Runtime) (u : ChannelUnit) : (u.endList r).1.activeStage = u.activeStage := by
  unfold ChannelUnit.endList; simp only; split <;> simp
@[simp] theorem ChannelUnit.preparePass_activeStage (tag : Word32) (r : Runtime) (u : ChannelUnit) :
    (u.preparePass tag r).1.activeStage = u.activeStage := by
  unfold ChannelUnit.preparePass; simp only; split <;> simp [ChannelUnit.beginPass]
@[simp] theorem ChannelUnit.endPass_activeStage (tag : Word32) (r : Runtime) (u : ChannelUnit) :
    (u.endPass tag r).1.activeStage = u.activeStage := by
  unfold ChannelUnit.endPass; split <;> simp
@[simp] theorem ChannelUnit.endStep_activeStage (tag : Word32) (r : Runtime) (st : StepRecord) (u : ChannelUnit) :
    (u.endStep tag r st).1.activeStage = u.activeStage := by
  unfold ChannelUnit.endStep; simp only; split
  · split <;> simp
  · simp
@[simp] theorem ChannelUnit.finish_activeStage (tag : Word32) (u : ChannelUnit) : (u.finish tag).1.activeStage = u.activeStage :=
  ChannelUnit.finish_induct (P := fun v => v.activeStage = u.activeStage) tag (fun v r st hv _ => by simpa using hv) u rfl

@[simp] theorem ChannelUnit.useMark_faultLatch (tag : Word32) (hold : HoldOn) (u : ChannelUnit) :
    (u.useMark tag hold).faultLatch = u.faultLatch := by
  cases hold <;> simp only [ChannelUnit.useMark, HoldOn.line] <;> first | rfl | (split <;> rfl)
@[simp] theorem ChannelUnit.startStep_faultLatch (tag : Word32) (r : Runtime) (u : ChannelUnit) :
    (u.startStep tag r).faultLatch = u.faultLatch := by
  unfold ChannelUnit.startStep; split <;> simp
@[simp] theorem ChannelUnit.endList_faultLatch (r : Runtime) (u : ChannelUnit) : (u.endList r).1.faultLatch = u.faultLatch := by
  unfold ChannelUnit.endList; simp only; split <;> simp
@[simp] theorem ChannelUnit.preparePass_faultLatch (tag : Word32) (r : Runtime) (u : ChannelUnit) :
    (u.preparePass tag r).1.faultLatch = u.faultLatch := by
  unfold ChannelUnit.preparePass; simp only; split <;> simp [ChannelUnit.beginPass]
@[simp] theorem ChannelUnit.endPass_faultLatch (tag : Word32) (r : Runtime) (u : ChannelUnit) :
    (u.endPass tag r).1.faultLatch = u.faultLatch := by
  unfold ChannelUnit.endPass; split <;> simp
@[simp] theorem ChannelUnit.endStep_faultLatch (tag : Word32) (r : Runtime) (st : StepRecord) (u : ChannelUnit) :
    (u.endStep tag r st).1.faultLatch = u.faultLatch := by
  unfold ChannelUnit.endStep; simp only; split
  · split <;> simp
  · simp
@[simp] theorem ChannelUnit.finish_faultLatch (tag : Word32) (u : ChannelUnit) : (u.finish tag).1.faultLatch = u.faultLatch :=
  ChannelUnit.finish_induct (P := fun v => v.faultLatch = u.faultLatch) tag (fun v r st hv _ => by simpa using hv) u rfl

@[simp] theorem ChannelUnit.useMark_slots (tag : Word32) (hold : HoldOn) (u : ChannelUnit) :
    (u.useMark tag hold).slots = u.slots := by
  cases hold <;> simp only [ChannelUnit.useMark, HoldOn.line] <;> first | rfl | (split <;> rfl)
@[simp] theorem ChannelUnit.startStep_slots (tag : Word32) (r : Runtime) (u : ChannelUnit) :
    (u.startStep tag r).slots = u.slots := by
  unfold ChannelUnit.startStep; split <;> simp
@[simp] theorem ChannelUnit.endList_slots (r : Runtime) (u : ChannelUnit) : (u.endList r).1.slots = u.slots := by
  unfold ChannelUnit.endList; simp only; split <;> simp
@[simp] theorem ChannelUnit.preparePass_slots (tag : Word32) (r : Runtime) (u : ChannelUnit) :
    (u.preparePass tag r).1.slots = u.slots := by
  unfold ChannelUnit.preparePass; simp only; split <;> simp [ChannelUnit.beginPass]
@[simp] theorem ChannelUnit.endPass_slots (tag : Word32) (r : Runtime) (u : ChannelUnit) :
    (u.endPass tag r).1.slots = u.slots := by
  unfold ChannelUnit.endPass; split <;> simp
@[simp] theorem ChannelUnit.endStep_slots (tag : Word32) (r : Runtime) (st : StepRecord) (u : ChannelUnit) :
    (u.endStep tag r st).1.slots = u.slots := by
  unfold ChannelUnit.endStep; simp only; split
  · split <;> simp
  · simp
@[simp] theorem ChannelUnit.finish_slots (tag : Word32) (u : ChannelUnit) : (u.finish tag).1.slots = u.slots :=
  ChannelUnit.finish_induct (P := fun v => v.slots = u.slots) tag (fun v r st hv _ => by simpa using hv) u rfl

@[simp] theorem ChannelUnit.useMark_descriptor (tag : Word32) (hold : HoldOn) (u : ChannelUnit) :
    (u.useMark tag hold).descriptor = u.descriptor := by
  cases hold <;> simp only [ChannelUnit.useMark, HoldOn.line] <;> first | rfl | (split <;> rfl)
@[simp] theorem ChannelUnit.startStep_descriptor (tag : Word32) (r : Runtime) (u : ChannelUnit) :
    (u.startStep tag r).descriptor = u.descriptor := by
  unfold ChannelUnit.startStep; split <;> simp
@[simp] theorem ChannelUnit.endList_descriptor (r : Runtime) (u : ChannelUnit) : (u.endList r).1.descriptor = u.descriptor := by
  unfold ChannelUnit.endList; simp only; split <;> simp
@[simp] theorem ChannelUnit.preparePass_descriptor (tag : Word32) (r : Runtime) (u : ChannelUnit) :
    (u.preparePass tag r).1.descriptor = u.descriptor := by
  unfold ChannelUnit.preparePass; simp only; split <;> simp [ChannelUnit.beginPass]
@[simp] theorem ChannelUnit.endPass_descriptor (tag : Word32) (r : Runtime) (u : ChannelUnit) :
    (u.endPass tag r).1.descriptor = u.descriptor := by
  unfold ChannelUnit.endPass; split <;> simp
@[simp] theorem ChannelUnit.endStep_descriptor (tag : Word32) (r : Runtime) (st : StepRecord) (u : ChannelUnit) :
    (u.endStep tag r st).1.descriptor = u.descriptor := by
  unfold ChannelUnit.endStep; simp only; split
  · split <;> simp
  · simp
@[simp] theorem ChannelUnit.finish_descriptor (tag : Word32) (u : ChannelUnit) : (u.finish tag).1.descriptor = u.descriptor :=
  ChannelUnit.finish_induct (P := fun v => v.descriptor = u.descriptor) tag (fun v r st hv _ => by simpa using hv) u rfl

@[simp] theorem ChannelUnit.useMark_lastCheck (tag : Word32) (hold : HoldOn) (u : ChannelUnit) :
    (u.useMark tag hold).lastCheck = u.lastCheck := by
  cases hold <;> simp only [ChannelUnit.useMark, HoldOn.line] <;> first | rfl | (split <;> rfl)
@[simp] theorem ChannelUnit.startStep_lastCheck (tag : Word32) (r : Runtime) (u : ChannelUnit) :
    (u.startStep tag r).lastCheck = u.lastCheck := by
  unfold ChannelUnit.startStep; split <;> simp
@[simp] theorem ChannelUnit.endList_lastCheck (r : Runtime) (u : ChannelUnit) : (u.endList r).1.lastCheck = u.lastCheck := by
  unfold ChannelUnit.endList; simp only; split <;> simp
@[simp] theorem ChannelUnit.preparePass_lastCheck (tag : Word32) (r : Runtime) (u : ChannelUnit) :
    (u.preparePass tag r).1.lastCheck = u.lastCheck := by
  unfold ChannelUnit.preparePass; simp only; split <;> simp [ChannelUnit.beginPass]
@[simp] theorem ChannelUnit.endPass_lastCheck (tag : Word32) (r : Runtime) (u : ChannelUnit) :
    (u.endPass tag r).1.lastCheck = u.lastCheck := by
  unfold ChannelUnit.endPass; split <;> simp
@[simp] theorem ChannelUnit.endStep_lastCheck (tag : Word32) (r : Runtime) (st : StepRecord) (u : ChannelUnit) :
    (u.endStep tag r st).1.lastCheck = u.lastCheck := by
  unfold ChannelUnit.endStep; simp only; split
  · split <;> simp
  · simp
@[simp] theorem ChannelUnit.finish_lastCheck (tag : Word32) (u : ChannelUnit) : (u.finish tag).1.lastCheck = u.lastCheck :=
  ChannelUnit.finish_induct (P := fun v => v.lastCheck = u.lastCheck) tag (fun v r st hv _ => by simpa using hv) u rfl

end Sys2Proof.Machine
end

