-- ==== Sys2Proof/Laws/Requests.lean ====
section
/-!
SUPPORT. What the checks of the requests decide, in the words of the rules, and which request an exec arm is.
-/

namespace Sys2Proof.Machine

/-! ## Operands -/

theorem chOf_eq {channel : Byte} {c : Ch} (h : channel.toNat = c.val) : chOf channel = c :=
  Fin.ext (by simp [chOf, h])

theorem slotOf_eq {slot : Byte} {n : Fin 16} (h : slot.toNat = n.val) : slotOf slot = n :=
  Fin.ext (by simp [slotOf, h])

theorem posOf_eq {value : Byte} {p : Pos} (h : p.val = value.toNat) : posOf value = p :=
  Fin.ext (by simp only [posOf, Fin.ofNat, ← h]; exact Nat.mod_eq_of_lt p.isLt)

theorem natByte_eq {b : Byte} {n : Nat} (h : b.toNat = n) : natByte n = b := by subst h; simp [natByte]

@[simp] theorem edgeSelectionOf_code (e : EdgeSelection) : edgeSelectionOf e.code = e := by cases e <;> rfl

@[simp] theorem masterOf_code (m : Master) : masterOf m.code = m := by cases m <;> rfl

/-- A channel set of a frame names a channel by the bit of that weight (R189). -/
theorem channelSetOf_getLsbD (set : Word16) (c : Ch) : (channelSetOf set).getLsbD c.val = set.getLsbD c.val := by
  rw [channelSetOf, BitVec.getLsbD_setWidth]
  simp only [c.isLt, decide_true, Bool.true_and]

/-- A well-formed channel set is answered as it was named (R192). -/
theorem setBytes_channelSetOf {set : Word16} (h : set.toNat < 4096) : setBytes (channelSetOf set) = bytes16 set := by
  unfold setBytes channelSetOf
  congr 1
  apply BitVec.eq_of_toNat_eq
  have := set.isLt
  simp only [BitVec.toNat_setWidth]
  omega

theorem mem_onlyChannel : ∀ c d : Ch, (onlyChannel c).getLsbD d.val = true ↔ d = c := by decide

/-! ## Checks -/

theorem State.holdsAll_iff {s : State} {m : Master} {set : ChannelSet} :
    s.holdsAll m set = true ↔ ∀ c : Ch, set.getLsbD c.val = true → s.holder c = some m := by
  simp [State.holdsAll, mem_channelsOf]

theorem State.allChannelsIn_iff {s : State} {set : ChannelSet} {ok : ChannelUnit → Bool} :
    s.allChannelsIn set ok = true ↔ ∀ c : Ch, set.getLsbD c.val = true → ok (s.channel c) = true := by
  simp [State.allChannelsIn, mem_channelsOf]

theorem State.allFree_iff {s : State} {set : ChannelSet} :
    s.allFree set = true ↔ ∀ c : Ch, set.getLsbD c.val = true → s.holder c = none := by
  simp [State.allFree, mem_channelsOf]

/-- The set that an answer of PROCEED or STOP names. -/
theorem State.channelsWhere_iff {s : State} {set : ChannelSet} {ok : ChannelUnit → Bool} {c : Ch} :
    (s.channelsWhere set ok).getLsbD c.val = true ↔ set.getLsbD c.val = true ∧ ok (s.channel c) = true := by
  suffices h : ∀ (cs : List Ch) (found : ChannelSet),
      (cs.foldl (fun found c => if ok (s.channel c) then found ||| onlyChannel c else found) found).getLsbD c.val = true ↔
        found.getLsbD c.val = true ∨ c ∈ cs ∧ ok (s.channel c) = true by
    unfold State.channelsWhere
    rw [h]
    simp [mem_channelsOf]
  intro cs
  induction cs with
  | nil => intro found; simp
  | cons d rest ih =>
    intro found
    rw [List.foldl_cons, ih]
    by_cases hd : ok (s.channel d) = true
    · rw [if_pos hd, BitVec.getLsbD_or, Bool.or_eq_true, mem_onlyChannel]
      constructor
      · rintro ((h | rfl) | ⟨h, k⟩)
        · exact Or.inl h
        · exact Or.inr ⟨List.mem_cons_self, hd⟩
        · exact Or.inr ⟨List.mem_cons_of_mem _ h, k⟩
      · rintro (h | ⟨h, k⟩)
        · exact Or.inl (Or.inl h)
        · rcases List.mem_cons.mp h with rfl | h
          · exact Or.inl (Or.inr rfl)
          · exact Or.inr ⟨h, k⟩
    · rw [if_neg hd]
      constructor
      · rintro (h | ⟨h, k⟩)
        · exact Or.inl h
        · exact Or.inr ⟨List.mem_cons_of_mem _ h, k⟩
      · rintro (h | ⟨h, k⟩)
        · exact Or.inl h
        · rcases List.mem_cons.mp h with rfl | h
          · exact absurd k hd
          · exact Or.inr ⟨h, k⟩

theorem ChannelUnit.configurable_iff {u : ChannelUnit} :
    u.configurable = true ↔ u.drive = .steady ∧ u.list.active = false := by
  simp [ChannelUnit.configurable]

theorem RangePart.holds_iff {r : RangePart} {code : Word16} : r.holds code = true ↔ r.low ≤ code ∧ code ≤ r.high := by
  simp [RangePart.holds]

theorem ChannelUnit.slotsLoaded_iff {u : ChannelUnit} {count : Nat} :
    u.slotsLoaded count = true ↔ ∀ n : Fin 16, n.val < count → u.slots[n] ≠ none := by
  simp only [ChannelUnit.slotsLoaded, List.all_eq_true, List.mem_take_iff_getElem]
  constructor
  · intro h n hn
    have := h _ ⟨n.val, by simp [hn], rfl⟩
    simpa [Option.isSome_iff_ne_none] using this
  · rintro h o ⟨i, hi, rfl⟩
    simp only [Vector.length_toList, lt_min_iff] at hi
    have := h ⟨i, hi.2⟩ hi.1
    simpa [Option.isSome_iff_ne_none] using this

theorem ClaimTable.hasPending_iff {t : ClaimTable} {m : Master} :
    t.hasPending m = true ↔ ∃ (p : Pos) (e : ClaimEntry), t.entries[p] = some e ∧ e.isPending = true ∧ e.master = m := by
  simp [ClaimTable.hasPending, mem_allPositions, Option.any_eq_true]

theorem ClaimTable.waitsOn_iff {t : ClaimTable} {m : Master} {set : ChannelSet} :
    t.waitsOn m set = true ↔
      ∃ (p : Pos) (e : ClaimEntry), t.entries[p] = some e ∧ e.isPending = true ∧ e.master = m ∧ e.set &&& set ≠ 0 := by
  simp [ClaimTable.waitsOn, mem_allPositions, Option.any_eq_true, and_assoc]

theorem ClaimTable.freePosition_none {t : ClaimTable} : t.freePosition = none ↔ ∀ p : Pos, t.entries[p] ≠ none := by
  simp [ClaimTable.freePosition, mem_allPositions, List.find?_eq_none]

/-- The free position a CLAIM takes is the lowest (R1). -/
theorem ClaimTable.freePosition_some {t : ClaimTable} {p : Pos} :
    t.freePosition = some p ↔ t.entries[p] = none ∧ ∀ q : Pos, q < p → t.entries[q] ≠ none := by
  have hs : allPositions.Pairwise (· < ·) := by decide
  unfold ClaimTable.freePosition
  rw [List.find?_eq_some_iff_append]
  constructor
  · rintro ⟨hp, as, bs, hl, has⟩
    refine ⟨by simpa using hp, fun q hq => ?_⟩
    have hmem : q ∈ as ++ p :: bs := hl ▸ mem_allPositions q
    rw [hl, List.pairwise_append] at hs
    rcases List.mem_append.mp hmem with h | h
    · have := has q h
      intro hn; rw [hn] at this; exact absurd this (by decide)
    · rcases List.mem_cons.mp h with rfl | h
      · exact absurd hq (lt_irrefl _)
      · exact absurd hq (not_lt.mpr (le_of_lt (List.rel_of_pairwise_cons hs.2.1 h)))
  · rintro ⟨hp, hq⟩
    obtain ⟨as, bs, hl⟩ := List.append_of_mem (mem_allPositions p)
    refine ⟨by rw [hp]; rfl, as, bs, hl, fun q h => ?_⟩
    rw [hl, List.pairwise_append] at hs
    have := hq q (hs.2.2 q h p List.mem_cons_self)
    cases hx : t.entries[q] with
    | none => exact absurd hx this
    | some e => rfl

/-- What makes a PENDING entry grantable (R12). -/
theorem State.grantable_iff {s : State} {p : Pos} {e : ClaimEntry} :
    s.grantable p e = true ↔
      (∀ c : Ch, e.set.getLsbD c.val = true → s.holder c = none) ∧
        ∀ q f, q ∈ s.claims.order.takeWhile (fun q => q ≠ p) → s.entry q = some f → f.set &&& e.set = 0 := by
  rw [State.grantable, Bool.and_eq_true, State.allFree_iff, List.all_eq_true]
  refine and_congr Iff.rfl ⟨fun h q f hq hf => ?_, fun h q hq => ?_⟩
  · have := h q hq
    unfold ClaimTable.clearOf at this
    rw [show s.claims.entries[q] = some f from hf] at this
    simpa using this
  · unfold ClaimTable.clearOf
    cases hf : s.claims.entries[q] with
    | none => rfl
    | some f => simpa using h q f hq hf

/-! ## Lists of a set -/

/-- A request over a set reaches each channel of the set once, and its event sees that channel as it stood. -/
theorem State.listEvents_channel {s : State} {m : Master} {set : ChannelSet} {f : ChannelUnit → Progress} {c : Ch}
    (h : set.getLsbD c.val = true) : (s.listEvents m set f).channel c = (f (s.channel c)).1 :=
  State.channelEvents_channel_same _ f (channelsOf_nodup set) (mem_channelsOf.mpr h) s

/-! ## The arms of exec -/

/-- Every request arm is `request` of itself, at the port of its master. -/
theorem exec_request {i : Instr} {code : Byte} (h : i.requestCode = some code) :
    ∃ m take, i.frameMaster = some m ∧ ∀ s, exec i s = request i m take s := by
  cases i <;> first
    | exact ⟨_, _, rfl, fun _ => rfl⟩
    | exact absurd h (by rintro ⟨⟩)

/-- The request that a frame spells is one of the port's master. -/
theorem decodeFrame_frameMaster (m : Master) (f : List Byte) : (decodeFrame m f).frameMaster = some m := by
  unfold decodeFrame
  simp only
  split <;> rfl

/-- The frame end at a port is a command of the port's master. -/
theorem State.frameEnd_frameMaster {s : State} {m : Master} {i : Instr} (h : s.frameEnd m = some i) :
    i.frameMaster = some m := by
  rcases (State.frameEnd_some h).2.2 with ⟨-, rfl⟩ | ⟨-, rfl⟩
  · rfl
  · exact decodeFrame_frameMaster _ _

end Sys2Proof.Machine
end

