-- ==== Sys2Proof/Tests/Slice0.lean ====
section
/-!
SUPPORT. Tests: an ill-formed term for each well-formedness check; values the spec prints; one event of each kind on a small
state; and, for each statement with hypotheses, a state and operands that meet them, at the boundary values of its clauses.
-/

namespace Sys2Proof.Tests

open Sys2Proof Sys2Proof.Machine

set_option maxRecDepth 100000
set_option Elab.async false

/-! ## Small states -/

/-- The next state of a command; the state itself where there is none. -/
def run (i : Instr) (s : State) : State :=
  match exec i s with
  | .next t => t
  | .fault _ | .refused _ => s

/-- A state in which the frame of a request has been received whole, and select is about to rise. -/
def arrives (i : Instr) (s : State) : State :=
  match i.frameMaster with
  | some m => s.setPort m { s.port m with inProgress := true, bitCount := 192, bytes := encodeFrame i }
  | none => s

/-- A request received and taken. -/
def send (i : Instr) (s : State) : State := run i (arrives i s)

/-- The first bytes of the response of a port. -/
def answer (n : Nat) (m : Master) (s : State) : List Byte := ((s.port m).response).take n

/-- A claim entry of a test: number `p + 1`, lease period 10. -/
def entryAt (p : Pos) (m : Master) (set : ChannelSet) (state : ClaimState) : ClaimEntry :=
  { number := natByte p.val + 1, master := m, set := set, leasePeriod := 10, state := state }

/-- A state with one more claim entry. -/
def withEntry (p : Pos) (e : ClaimEntry) (s : State) : State :=
  s.setClaims
    { s.claims with
      entries := s.claims.entries.set p (some e), nextNumber := natByte p.val + 2
      order := if e.isPending then s.claims.order ++ [p] else s.claims.order }

/-- The part with a claim of M0 over the set, at position 0, and one change on CH0. -/
def held (set : ChannelSet) (f : ChannelUnit → ChannelUnit) : State :=
  (withEntry 0 (entryAt 0 .m0 set (.held 10 0)) State.reset).onChannel 0 f

/-- A configuration record with the policy of the tests: settle time 1, one retry on the other stage, everything counted. -/
def testConfig (fault revoke : Action) (checkWrites : Bool) : ConfigRecord :=
  { range := { low := 0, high := 1000, fallback := 500, maxRate := 100 }
    policy :=
      { settleTime := 1, retryLimit := 1, retry1 := .alternate, retry2 := .same, counted := 7, preferred := .a
        checkWrites := checkWrites, faultAction := fault, revokeAction := revoke } }

/-- A step record of the tests. -/
def testStep (target rate dwell : Word16) (hold : HoldOn) (check record : Bool) : StepRecord :=
  { target := target, rate := rate, dwell := dwell, hold := hold, check := check, record := record }

/-- A runtime record of the tests, at step 0 of the first pass. -/
def testRuntime (phase : RunPhase) (dwell : Option Word16) (stop : Option StopReason) : Runtime :=
  { index := 0, passCount := 0, phase := phase, dwellTimer := dwell, triggerSeen := false, proceedSeen := false
    passStart := 0, pendingStop := stop }

/-- A channel unit with a list of one step in slot 0. -/
def withList (st : StepRecord) (mode : ListMode) (onFault : OnFault) (list : ListState) (u : ChannelUnit) : ChannelUnit :=
  { u with
    slots := u.slots.set 0 (some st)
    descriptor := { count := 1, mode := mode, period := 4, onFault := onFault, recordPasses := true }, list := list }

/-- A check of origin and attempt as given, whose settle timer has run out. -/
def checkDue (origin : CheckOrigin) (attempt : Byte) (previous : Option Verdict) : Drive :=
  .checking { origin := origin, attempt := attempt, settleRemaining := 0, previous := previous }

/-! ## Well-formedness: an ill-formed term for each check -/

theorem test_ill_formed_are_refused :
    ([.claim .m0 0 10 0 0 0, .claim .m0 0x1000 10 0 0 0, .claim .m0 1 9 0 0 0, .claim .m0 1 10 0 2 0, .renew .m0 0,
      .release .m0 0 0, .release .m0 1 2, .withdraw .m0 0, .offer .m0 0 1 10, .offer .m0 1 3 10, .offer .m0 1 0 10,
      .offer .m0 1 1 9, .accept .m0 0 10, .accept .m0 1 9, .readClaim .m0 0 0, .readClaim .m0 1 8, .readClaim .m0 2 1,
      .setRange .m0 12 0 9 5 0, .setRange .m0 0 10 9 9 0, .setRange .m0 0 5 9 4 0, .setRange .m0 0 5 9 10 0,
      .setPolicy .m0 12 1 0 0 0 0 0, .setPolicy .m0 0 0 0 0 0 0 0, .setPolicy .m0 0 1 3 0 0 0 0,
      .setPolicy .m0 0 1 0 16 0 0 0, .setPolicy .m0 0 1 0 0 8 0 0, .setPolicy .m0 0 1 0 0 0 3 0,
      .setPolicy .m0 0 1 0 0 0 0 3, .write .m0 12 0 0, .clearFault .m0 12, .readChannel .m0 12, .readConfig .m0 12,
      .readDigest .m0 0, .readDigest .m0 0x8001, .loadStep .m0 12 0 0 0 0 0, .loadStep .m0 0 16 0 0 0 0,
      .loadStep .m0 0 0 0 0 0 16, .setList .m0 12 1 0 0 0 0, .setList .m0 0 0 0 0 0 0, .setList .m0 0 17 0 0 0 0,
      .setList .m0 0 1 2 0 0 0, .setList .m0 0 1 0 0 3 0, .setList .m0 0 1 0 0 0 2, .start .m0 0 0, .start .m0 1 3,
      .stop .m0 0 0, .stop .m0 1 2, .pause .m0 0, .resume .m0 0 0, .resume .m0 1 2, .proceed .m0 0, .readStep .m0 12 0,
      .readStep .m0 0 16, .readLog .m0 2, .setLogThreshold .m0 65, .ackNotices .m0 0x200, .setNoticeMask .m0 0x200,
      .setTriggers .m0 3 0, .setTriggers .m0 0 3] : List Instr).all (fun i => !i.parametersOk) = true := by
  decide

theorem test_well_formed_at_the_bounds :
    ([.claim .m0 0xFFF 10 0 0 0xFFFF, .offer .m0 255 2 10, .accept .m0 255 65535, .readClaim .m0 0 255, .readClaim .m0 1 7,
      .setRange .m0 11 7 7 7 65535, .setPolicy .m0 11 255 2 15 7 2 2, .loadStep .m0 11 15 65535 65535 65535 15,
      .setList .m0 11 16 1 65535 2 1, .start .m0 0x800 2, .stop .m0 1 1, .readLog .m0 1, .setLogThreshold .m0 64,
      .ackNotices .m0 0, .ackNotices .m0 0x1FF, .setTriggers .m0 2 2] : List Instr).all Instr.parametersOk = true := by
  decide

/-! ## Values the spec prints -/

/-- The two checks of the CRC-16 computation (R66). -/
theorem test_crc16 : crc16 [0x31, 0x32, 0x33, 0x34, 0x35, 0x36, 0x37, 0x38, 0x39] = 0x29B1 ∧ crc16 [0x00] = 0xE1F0 := by
  decide +kernel

/-- The check of the CRC-8 computation (R172). -/
theorem test_crc8 : crc8 [0x00] = 0xF3 := by decide +kernel

/-- The full-reset record, byte for byte (R191), and its digest in every channel (R70). -/
theorem test_reset_record :
    ConfigRecord.reset.bytes = ConfigRecord.resetBytes ∧
      ConfigRecord.resetBytes = [0, 0, 0xFF, 0xFF, 0, 0, 0, 0, 0x0A, 0, 0, 0x07, 0, 0] ∧
        ∀ c : Ch, (State.reset.channel c).digest = crc16 ConfigRecord.resetBytes := by
  decide +kernel

/-- The full-reset mask is 0x01FB (R189), and the first response shifted out is NO_RESPONSE (R179). -/
theorem test_reset_port_and_mask :
    State.reset.notices.m1.mask = 0x1FB ∧ answer 3 .m2 State.reset = [0x00, 0x0F, 0x00] := by
  decide +kernel

/-! ## One event of each kind -/

/-- A CLAIM of free channels is granted in its own request (R10): claim number 1, outcome HELD, tag 0, lease 10. -/
theorem test_claim_granted :
    answer 11 .m1 (send (.claim .m1 0x003 10 0 0 0) State.reset) = [0x10, 0x00, 0x01, 0x02, 0, 0, 0, 0, 0x00, 0x0A, 0] := by
  decide +kernel

/-- A CLAIM of a held channel waits at pending position 1; a second one of the same master is BUSY (R8, R10). -/
theorem test_claim_waits :
    answer 5 .m1 (send (.claim .m1 0x001 10 0 0 0) (held 0x001 id)) = [0x10, 0x00, 0x02, 0x01, 0x01] ∧
      answer 2 .m1 (send (.claim .m1 0x800 10 0 0 0) (send (.claim .m1 0x001 10 0 0 0) (held 0x001 id))) = [0x10, 0x06] := by
  decide +kernel

/-- A RELEASE frees the channel and grants the claim that waits for it, with a record each, in this order (R15, R22). -/
theorem test_release_grants :
    let t := send (.release .m0 1 0) (send (.claim .m1 0x001 10 0 0 0) (held 0x001 id))
    t.holder 0 = some .m1 ∧ t.log.records.map (fun r => r.body.kindCode) = [0x03, 0x01] := by
  decide +kernel

/-- An offer that is accepted passes the claim, its number and its grant tag (R47). -/
theorem test_handoff :
    let t := send (.accept .m2 1 50) (send (.offer .m0 1 2 10) (held 0x001 id))
    t.holder 0 = some .m2 ∧ t.notices.m0.handoff = some .accepted ∧
      t.log.records.map (fun r => r.body.bytes) = [[0x01, 0x00, 0x01, 0x00, 0x02]] := by
  decide +kernel

/-- A lease that runs out bars its master, whose next WRITE is BARRED; ACK_REVOKE makes it ACTIVE again (R32, R38, R40). -/
theorem test_lease_expiry :
    let t := run (.leaseExpiry 0) (withEntry 0 (entryAt 0 .m0 0x001 (.held 0 0)) State.reset)
    t.holder 0 = none ∧ t.notices.m0.line = true ∧ answer 2 .m0 (send (.write .m0 0 5 0) t) = [0x22, 0x04] ∧
      answer 3 .m0 (send (.ackRevoke .m0) t) = [0x16, 0x00, 0x01] := by
  decide +kernel

/-- SET_RANGE answers the new digest and empties the list (R60). -/
theorem test_set_range :
    let t := send (.setRange .m0 0 0 9 5 7) (held 0x001 (withList (testStep 3 0 0 .none false false) .single .stop .loaded))
    (t.channel 0).list = .empty ∧ (t.channel 0).slots[0] = none ∧
      answer 4 .m0 t = [0x20, 0x00] ++ bytes16 (crc16 [0, 0, 0, 9, 0, 5, 0, 7, 0x0A, 0, 0, 0x07, 0, 0]) := by
  decide +kernel

/-- A WRITE at rate 40 toward 100 runs 40, 80, 100, and ends STEADY at the third advance (R77, R80). -/
theorem test_write_ramp :
    let tick := fun s => run (.moveAdvance 0) (run .timeTagAdvance s)
    let t := send (.write .m0 0 100 40) (held 0x001 id)
    answer 5 .m0 t = [0x22, 0x00, 0x00, 40, 0x01] ∧ (tick t |>.channel 0).code = 40 ∧
      (tick (tick t) |>.channel 0).code = 80 ∧ (tick (tick (tick t)) |>.channel 0).code = 100 ∧
        (tick (tick (tick t)) |>.channel 0).drive = .steady := by
  decide +kernel

/-- A check that fails on its last attempt sets the latch, writes CHECK_FAILED and jumps to the fallback code (R86, R93). -/
theorem test_check_fails :
    let t := run (.settleExpiry 0 4)
      (held 0x001 (fun u =>
        { u with config := testConfig .fallback .hold true, drive := checkDue .write 2 (some { raw := 1, counted := 1 }) }))
    (t.channel 0).faultLatch = true ∧ (t.channel 0).code = 500 ∧ t.notices.m0.pending = 0x040 ∧
      t.log.records.map (fun r => r.body.bytes) = [[0x00, 0x1C, 0, 0, 0, 2, 4, 4, 0, 0, 0]] := by
  decide +kernel

/-- A START of a list whose one step ends at once runs it to its end: STEP_DONE, LIST_END, LIST (R119, R125, R130). -/
theorem test_start_runs_through :
    let t := send (.start .m0 0x001 0) (held 0x001 (withList (testStep 30 0 0 .none false true) .single .stop .loaded))
    (t.channel 0).code = 30 ∧ (t.channel 0).list = .loaded ∧ t.notices.m0.pending = 0x020 ∧
      t.log.records.map (fun r => r.body.kindCode) = [0x07, 0x09] ∧ answer 5 .m0 t = [0x32, 0x00, 0x00, 0x01, 0x03] := by
  decide +kernel

/-- An edge on the armed line starts the list, and an edge on a free channel sets its edge mark (R117, R127). -/
theorem test_trigger_edge :
    let t := run (.triggerTransition .trg0 .high 2000)
      (held 0x001 (withList (testStep 30 0 5 .none false true) .single .stop (.armed .trg0)))
    (t.channel 0).list = .running (testRuntime .hold (some 5) none) ∧ (t.channel 0).mark0 = none ∧
      (t.channel 11).mark0 = some 0 ∧ t.trg0.level = .high := by
  decide +kernel

/-- A PAUSE freezes a dwell that has run out, and a RESUME finds it met: the step ends (R143, R145). -/
theorem test_pause_resume :
    let t := send (.pause .m0 0x001)
      (held 0x001 (withList (testStep 30 0 5 .none false true) .single .stop (.running (testRuntime .hold (some 0) none))))
    (t.channel 0).list = .paused (testRuntime .hold none none) ∧
      ((send (.resume .m0 0x001 0) t).channel 0).list = .loaded := by
  decide +kernel

/-- READ_LOG NEXT returns the record and passes it; the next one finds none (R155, R194). -/
theorem test_read_log :
    let t := send (.readLog .m1 0) (send (.claim .m0 0x00C 10 0 0 0) State.reset)
    answer 18 .m1 t = [0x40, 0x00, 0x01, 0x00, 0, 0, 0, 0, 0, 0, 0x01, 0x00, 0x01, 0x00, 0x0C, 0x00, 0xFF, 0x00] ∧
      answer 4 .m1 (send (.readLog .m1 0) t) = [0x40, 0x00, 0x00, 0x00] := by
  decide +kernel

/-- A CRC error is answered FRAME_ERROR, captured and noticed; a second one marks the capture LOST (R175, R176). -/
theorem test_frame_error :
    let bad : State → State := fun s =>
      run (.frameError .m1) (s.setPort .m1 { s.port .m1 with inProgress := true, bitCount := 192, bytes := List.replicate 24 7 })
    answer 3 .m1 (bad State.reset) = [0x07, 0x0E, 0x02] ∧ (bad State.reset).notices.m1.pending = 0x100 ∧
      (bad (bad State.reset)).ports.m1.capture = some { kind := .crc, firstByte := some 7, tag := 0, lost := true } := by
  decide +kernel

/-- A soft reset frees every channel, keeps the codes, and leaves one record (R187). -/
theorem test_reset_device :
    let t := send (.resetDevice .m0) (held allSet (fun u => { u with code := 77, faultLatch := true }))
    t.holder 0 = none ∧ (t.channel 0).code = 77 ∧ (t.channel 0).faultLatch = false ∧
      t.log.records.map (fun r => r.body.kindCode) = [0x0D] ∧ answer 2 .m0 t = [0x64, 0x00] ∧
        answer 2 .m1 t = [0x00, 0x0F] := by
  decide +kernel

/-! ## Hypotheses that are met -/

/-- The empty queue; the held part; the frame end that is not at hand. -/
theorem test_hyp_queue_and_resets :
    State.reset.pending = [] ∧ ({ State.reset with inReset := true } : State).inReset = true ∧
      State.reset.inReset = false ∧ (Instr.nop .m0).frameMaster = some .m0 ∧ State.reset.frameEnd .m0 ≠ some (.nop .m0) := by
  decide +kernel

/-- An empty position, and a drive with no check in flight. -/
theorem test_hyp_NotAtHand :
    State.reset.entry 7 = none ∧ (State.reset.channel 11).drive = .steady := by
  decide +kernel

/-- A state whose port of M0 has a frame in progress with the bit count and bytes. -/
def inFrame (bits : Nat) (bytes : List Byte) : State :=
  State.reset.setPort .m0 { Port.reset with inProgress := true, bitCount := bits, bytes := bytes }

theorem test_hyp_PortLines :
    (inFrame 0 []).inReset = false ∧ ((inFrame 0 []).port .m0).inProgress = true ∧ ((inFrame 0 []).port .m0).bitCount % 8 ≠ 7 ∧
      ((inFrame 7 []).port .m0).bitCount % 8 = 7 ∧ ((inFrame 191 []).port .m0).bitCount < 192 ∧
        192 ≤ ((inFrame 192 []).port .m0).bitCount ∧ ((inFrame 192 []).port .m0).outgoing.length = 24 ∧
          (State.reset.port .m0).inProgress = false := by
  decide +kernel

theorem test_hyp_FrameRoundTrip :
    (Instr.claim .m2 0xFFF 10 0 1 0xFFFF).frameMaster = some .m2 ∧
      (Instr.claim .m2 0xFFF 10 0 1 0xFFFF).frameBody = some [0x10, 0x0F, 0xFF, 0, 10, 0, 0, 1, 0xFF, 0xFF] ∧
        (∀ code, Instr.claim .m2 0xFFF 10 0 1 0xFFFF = .unknownRequest .m2 code → ∀ j : Instr, j.requestCode ≠ some code) ∧
          (Instr.unknownRequest .m2 0xFF).frameBody = some [0xFF] ∧ ∀ j : Instr, j.requestCode ≠ some 0xFF := by
  refine ⟨rfl, by decide +kernel, nofun, rfl, ?_⟩
  intro j
  cases j <;> simp [Instr.requestCode]

/-- A frame with a good CRC, and one with a bad one. -/
theorem test_hyp_ClockedFrameIsDelivered :
    (encodeFrame (.nop .m1)).length = 24 ∧ crc8 ((encodeFrame (.nop .m1)).take 23) = byteAt (encodeFrame (.nop .m1)) 23 ∧
      (List.replicate 24 (0 : Byte)).length = 24 ∧
        crc8 ((List.replicate 24 (0 : Byte)).take 23) ≠ byteAt (List.replicate 24 (0 : Byte)) 23 := by
  decide +kernel

/-- One bit short, one bit over, and a CRC error. -/
theorem test_hyp_FrameErrorTaken :
    ((inFrame 191 (List.replicate 23 7)).port .m0).bitCount ≠ 192 ∧
      ((inFrame 193 (List.replicate 24 7)).port .m0).bitCount ≠ 192 ∧
        ((inFrame 192 (List.replicate 24 7)).port .m0).bitCount = 192 ∧
          crc8 ((((inFrame 192 (List.replicate 24 7)).port .m0).bytes).take 23) ≠
            byteAt ((inFrame 192 (List.replicate 24 7)).port .m0).bytes 23 := by
  decide +kernel

/-- The part with M0 BARRED. -/
def barred : State := State.reset.setRevoke .m0 .barred

theorem test_hyp_HeadOfCheckOrder :
    (arrives (.unknownRequest .m0 0x01) State.reset).frameEnd .m0 = some (.unknownRequest .m0 0x01) ∧
      (arrives (.renew .m0 0) State.reset).frameEnd .m0 = some (.renew .m0 0) ∧ (Instr.renew .m0 0).parametersOk = false ∧
        (arrives (.renew .m0 1) barred).frameEnd .m0 = some (.renew .m0 1) ∧ (Instr.renew .m0 1).parametersOk = true ∧
          (Instr.renew .m0 1).barrable = true ∧ (arrives (.renew .m0 1) barred).barred .m0 = true ∧
            (arrives (.readTime .m0) barred).frameEnd .m0 = some (.readTime .m0) ∧ (Instr.readTime .m0).barrable = false ∧
              answer 2 .m0 (send (.readTime .m0) barred) = [0x62, 0x00] := by
  decide +kernel

theorem test_hyp_RefusedRequestChangesNothing :
    (arrives (.renew .m0 1) State.reset).frameEnd .m0 = some (.renew .m0 1) ∧
      byteAt ((send (.renew .m0 1) State.reset).port .m0).response 1 ≠ 0x00 := by
  decide +kernel

/-- CH0 held by M0 and CH1 free: M1 holds neither, and M0 holds only the first. -/
theorem test_hyp_NonHolder :
    (held 0x001 id).holder 0 ≠ some .m1 ∧ (held 0x001 id).holder 1 ≠ some .m0 ∧
      PassesHead (.write .m1 0 5 0) .m1 (arrives (.write .m1 0 5 0) (held 0x001 id)) ∧
        PassesHead (.start .m0 0x003 0) .m0 (arrives (.start .m0 0x003 0) (held 0x001 id)) ∧
          (channelSetOf 0x003).getLsbD 1 = true ∧
            PassesHead (.resetDevice .m0) .m0 (arrives (.resetDevice .m0) (held 0x001 id)) ∧ allSet.getLsbD 11 = true := by
  decide +kernel

/-- What the table of `held` holds at each position. -/
theorem held_entry (set : ChannelSet) (f : ChannelUnit → ChannelUnit) (p : Pos) (e : ClaimEntry)
    (h : (held set f).entry p = some e) : p = 0 ∧ e = entryAt 0 .m0 set (.held 10 0) := by
  have key : ∀ q : Pos, q ≠ 0 → (held set f).entry q = none := by
    intro q hq
    fin_cases q <;> first | exact absurd rfl hq | rfl
  by_cases hp : p = 0
  · subst hp; exact ⟨rfl, (Option.some.inj h).symm⟩
  · rw [key p hp] at h; cases h

theorem test_hyp_HolderLaw : HolderLaw (held 0x001 id) := by
  intro p q e f hp hq _ _ hne
  exact absurd ((held_entry _ _ p e hp).1.trans (held_entry _ _ q f hq).1.symm) hne

theorem test_hyp_ReadingRequests :
    ([.nop .m1, .readClaim .m1 0 1, .readClaim .m1 1 0, .readClaim .m1 0 255, .readClaim .m1 1 7, .readChannel .m1 11,
      .readConfig .m1 0, .readDigest .m1 0xFFF, .readStep .m1 11 15, .readNotices .m1, .readPortError .m1,
      .readTime .m1] : List Instr).all
        (fun i => decide ((arrives i (held 0x001 id)).frameEnd .m1 = some i) && i.parametersOk) = true ∧
      (held 0x001 id).claims.find 1 = some (0, entryAt 0 .m0 0x001 (.held 10 0)) ∧
        (held 0x001 id).entry 0 = some (entryAt 0 .m0 0x001 (.held 10 0)) ∧ (held 0x001 id).claims.find 255 = none ∧
          (held 0x001 id).entry 7 = none := by
  decide +kernel

/-- A held channel, a free one, and an empty capture. -/
theorem test_hyp_readouts :
    (held 0x001 id).claims.holding 0 = some (entryAt 0 .m0 0x001 (.held 10 0)) ∧ (held 0x001 id).claims.holding 1 = none ∧
      (barred.port .m0).capture = none := by
  decide +kernel

/-- M1 waits at position 1 behind M0's claim of CH0, by this wait timer. -/
def waiting (wait : Option WaitTimer) (expected : Option Word16) : State :=
  withEntry 1 (entryAt 1 .m1 0x001 (.pending wait expected)) (held 0x001 id)

/-- The table full: M0 holds the eight channels CH0 to CH7, one by one. -/
def full : State :=
  ([0, 1, 2, 3, 4, 5, 6, 7] : List Pos).foldl
    (fun s p => withEntry p (entryAt p .m0 (1#12 <<< p.val) (.held 10 0)) s) State.reset

/-- BUSY, OVERLAP and TABLE_FULL, each where the checks before it pass. -/
theorem test_hyp_ClaimRefusals :
    PassesHead (.claim .m1 0x800 10 0 0 0) .m1 (arrives (.claim .m1 0x800 10 0 0 0) (waiting none none)) ∧
      (waiting none none).claims.hasPending .m1 = true ∧
        PassesHead (.claim .m0 0x003 10 0 0 0) .m0 (arrives (.claim .m0 0x003 10 0 0 0) (held 0x001 id)) ∧
          (held 0x001 id).claims.hasPending .m0 = false ∧ (held 0x001 id).holder 0 = some .m0 ∧
            PassesHead (.claim .m1 0x800 10 0 0 0) .m1 (arrives (.claim .m1 0x800 10 0 0 0) full) ∧
              full.claims.hasPending .m1 = false ∧ full.holder 11 = none ∧ ∀ p, full.entry p ≠ none := by
  decide +kernel

/-- A CLAIM of a free channel, with the digest as it stands and with another, and one of a held channel. -/
theorem test_hyp_ClaimTaken :
    PassesHead (.claim .m1 0x800 10 0 1 (crc16 ConfigRecord.resetBytes)) .m1
        (arrives (.claim .m1 0x800 10 0 1 (crc16 ConfigRecord.resetBytes)) (held 0x001 id)) ∧
      (held 0x001 id).claims.order = [] ∧ (∀ q e, (held 0x001 id).entry q = some e → e.isPending = false) ∧
        (held 0x001 id).entry 1 = none ∧ (∀ q : Pos, q < 1 → (held 0x001 id).entry q ≠ none) ∧
          (held 0x001 id).holder 11 = none ∧ crc16 ConfigRecord.resetBytes = (held 0x001 id).combinedDigest 0x800 ∧
            0 ≠ (held 0x001 id).combinedDigest 0x800 ∧ (held 0x001 id).holder 0 ≠ none ∧ (held 0x001 id).holder 0 ≠ some .m1 := by
  refine ⟨by decide +kernel, by decide +kernel, ?_, by decide +kernel, by decide +kernel, by decide +kernel, by decide +kernel,
    by decide +kernel, by decide +kernel, by decide +kernel⟩
  intro q e h
  rw [(held_entry _ _ q e h).2]; rfl

/-- M0's claim of CH0 offered to M2, with these times to go. -/
def offered (lease time : Word16) : State :=
  withEntry 0 (entryAt 0 .m0 0x001 (.offered lease 0 .m2 time)) State.reset

/-- A CLAIM taken while M1 waits for CH0: granted, put at the tail of the pending order, and refused for its digest. -/
theorem test_hyp_ClaimTaken_while_waiting :
    ([.claim .m2 0x800 10 0 0 0, .claim .m2 0x001 10 0 0 0, .claim .m2 0x800 10 0 1 0] : List Instr).all
        (fun i => decide (PassesHead i .m2 (arrives i (waiting none none)))) = true ∧
      (waiting none none).claims.order = [1] ∧ (waiting none none).claims.hasPending .m2 = false ∧
        (waiting none none).holder 0 ≠ some .m2 ∧ (waiting none none).holder 11 ≠ some .m2 ∧
          (waiting none none).claims.freePosition = some 2 ∧
            answer 10 .m2 (send (.claim .m2 0x800 10 0 0 0) (waiting none none)) = [0x10, 0x00, 0x03, 0x02, 0, 0, 0, 0, 0x00, 0x0A] ∧
              answer 5 .m2 (send (.claim .m2 0x001 10 0 0 0) (waiting none none)) = [0x10, 0x00, 0x03, 0x01, 0x02] ∧
                (send (.claim .m2 0x001 10 0 0 0) (waiting none none)).claims.order = [1, 2] ∧
                  answer 5 .m2 (send (.claim .m2 0x800 10 0 1 0) (waiting none none)) = [0x10, 0x00, 0x03, 0x04, 0x02] := by
  decide +kernel

/-- The requests on a claim that pass their heads: by its holder, its requester, its target and a third master; and a number that
no entry carries. -/
theorem test_hyp_ClaimRequests :
    ([(.renew .m0 9, held 0x001 id), (.renew .m1 1, held 0x001 id), (.renew .m1 2, waiting none none),
      (.renew .m0 1, held 0x001 id), (.renew .m0 1, offered 5 10), (.release .m0 9 0, held 0x001 id),
      (.release .m1 1 0, held 0x001 id), (.release .m1 2 1, waiting none none), (.release .m0 1 0, held 0x001 id),
      (.release .m0 1 1, offered 5 10), (.withdraw .m0 9, held 0x001 id), (.withdraw .m1 2, waiting none none),
      (.withdraw .m1 1, held 0x001 id), (.withdraw .m0 1, held 0x001 id), (.withdraw .m0 1, offered 5 10),
      (.withdraw .m2 1, offered 5 10), (.withdraw .m1 1, offered 5 10), (.offer .m0 9 1 10, held 0x001 id),
      (.offer .m1 1 0 10, held 0x001 id), (.offer .m0 1 1 10, offered 5 10), (.offer .m0 1 2 65535, held 0x001 id),
      (.accept .m2 9 10, offered 5 10), (.accept .m1 1 10, offered 5 10), (.accept .m2 1 10, offered 5 10)] :
        List (Instr × State)).all
      (fun x => x.1.frameMaster.any (fun m => decide (PassesHead x.1 m (arrives x.1 x.2)))) = true ∧
      (held 0x001 id).claims.find 9 = none ∧ (held 0x001 id).claims.find 1 = some (0, entryAt 0 .m0 0x001 (.held 10 0)) ∧
        (waiting none none).claims.find 2 = some (1, entryAt 1 .m1 0x001 (.pending none none)) ∧
          (offered 5 10).claims.find 1 = some (0, entryAt 0 .m0 0x001 (.offered 5 0 .m2 10)) ∧
            (entryAt 0 .m0 0x001 (.held 10 0)).inForce = true ∧ (entryAt 1 .m1 0x001 (.pending none none)).inForce = false := by
  decide +kernel

/-- A READ_CLAIM of an entry in each state, by number and by position. -/
theorem test_hyp_ReadClaim_states :
    ([(.readClaim .m2 0 2, waiting none (some 5)), (.readClaim .m2 1 1, waiting (some { limit := 9, remaining := 4 }) none),
      (.readClaim .m2 0 1, offered 5 10), (.readClaim .m2 1 0, held 0x001 id)] : List (Instr × State)).all
        (fun x => decide ((arrives x.1 x.2).frameEnd .m2 = some x.1) && x.1.parametersOk) = true ∧
      (waiting none (some 5)).claims.find 2 = some (1, entryAt 1 .m1 0x001 (.pending none (some 5))) ∧
        answer 19 .m2 (send (.readClaim .m2 1 1) (waiting (some { limit := 9, remaining := 4 }) none)) =
          [0x17, 0x00, 0x01, 0x02, 0x01, 0x01, 0x00, 0x01, 0x00, 0x0A, 0x01, 0x00, 0x09, 0x00, 0x04, 0x00, 0x00, 0x00, 0x00] ∧
          answer 19 .m2 (send (.readClaim .m2 0 1) (offered 5 10)) =
            [0x17, 0x00, 0x03, 0x01, 0x00, 0x00, 0x00, 0x01, 0x00, 0x0A, 0x00, 0x05, 0x00, 0x00, 0x00, 0x00, 0x02, 0x00, 0x0A] := by
  decide +kernel

/-- An ACCEPT by a target that waits for the offered channel itself (R46). -/
theorem test_hyp_AcceptBusy :
    let s := withEntry 1 (entryAt 1 .m2 0x001 (.pending none none)) (offered 5 10)
    PassesHead (.accept .m2 1 10) .m2 (arrives (.accept .m2 1 10) s) ∧
      s.claims.find 1 = some (0, entryAt 0 .m0 0x001 (.offered 5 0 .m2 10)) ∧ s.claims.waitsOn .m2 0x001 = true := by
  decide +kernel

theorem test_hyp_AcknowledgingRequests :
    ([.ackRevoke .m0, .ackNotices .m0 0x1FF, .ackNotices .m0 0, .setNoticeMask .m0 0x1FF, .clearPortError .m0] : List Instr).all
      (fun i => decide ((arrives i barred).frameEnd .m0 = some i)) = true := by
  decide +kernel

/-- A wait that has run out and one that has not; an offer that has and one that has not; a lease of each kind. -/
theorem test_hyp_ClaimExpiries :
    (waiting (some { limit := 5, remaining := 0 }) none).entry 1 =
        some (entryAt 1 .m1 0x001 (.pending (some { limit := 5, remaining := 0 }) none)) ∧
      (waiting (some { limit := 5, remaining := 1 }) none).entry 1 =
          some (entryAt 1 .m1 0x001 (.pending (some { limit := 5, remaining := 1 }) none)) ∧
        (offered 5 0).entry 0 = some (entryAt 0 .m0 0x001 (.offered 5 0 .m2 0)) ∧
          (offered 5 1).entry 0 = some (entryAt 0 .m0 0x001 (.offered 5 0 .m2 1)) ∧
            (entryAt 0 .m0 0x001 (.offered 0 0 .m2 1)).leaseRemaining = some 0 ∧
              (entryAt 0 .m0 0x001 (.held 1 0)).leaseRemaining ≠ some 0 := by
  decide +kernel

/-- A visit of an entry that is not grantable, of one whose digest differs, and of one that is granted. -/
theorem test_hyp_GrantVisit :
    let free := withEntry 1 (entryAt 1 .m1 0x800 (.pending none (some 0))) (held 0x001 id)
    (waiting none none).entry 1 = some (entryAt 1 .m1 0x001 (.pending none none)) ∧
      (waiting none none).grantable 1 (entryAt 1 .m1 0x001 (.pending none none)) = false ∧
        free.entry 1 = some (entryAt 1 .m1 0x800 (.pending none (some 0))) ∧ free.holder 11 = none ∧
          free.claims.order.takeWhile (fun q => q ≠ 1) = [] ∧ 0 ≠ free.combinedDigest 0x800 := by
  decide +kernel

/-- A visit that grants, as the first of a walk over two entries: M1 waits for the free CH11, and M2 behind it. -/
theorem test_hyp_GrantVisit_grants :
    let e := entryAt 1 .m1 0x800 (.pending none none)
    let s := withEntry 2 (entryAt 2 .m2 0x800 (.pending none none)) (withEntry 1 e (held 0x001 id))
    s.entry 1 = some e ∧ s.claims.order = [1, 2] ∧ s.holder 11 = none ∧ s.claims.order.takeWhile (fun q => q ≠ 1) = [] ∧
      (s.visit 1).holder 11 = some .m1 ∧ (s.visit 1).notices.m1.pending = 0x001 ∧
        s.grantEvaluation.claims.order = [2] := by
  decide +kernel

/-- Entries that are renewed and entries that are not. -/
theorem test_hyp_LeaseRenewal :
    (held 0x001 id).entry 0 = some (entryAt 0 .m0 0x001 (.held 10 0)) ∧ (0x001#12 &&& 0x003 ≠ 0) ∧ (0x001#12 &&& 0x800 = 0) ∧
      (offered 5 10).entry 0 = some (entryAt 0 .m0 0x001 (.offered 5 0 .m2 10)) ∧ (held 0x001 id).entry 1 = none := by
  decide +kernel

/-- Seven entries, and the search begins at the number of the first. -/
theorem test_hyp_NewClaimNumber :
    let s := full.setClaims { full.claims with entries := full.claims.entries.set 7 none, nextNumber := 1 }
    s.claims.nextNumber ≠ 0 ∧ s.entry 7 = none ∧ s.claims.newNumber = 8 := by
  decide +kernel

/-! ### Channels -/

/-- M0 holds CH0, whose unit has the drive and the list and the configuration of the tests. -/
def onDrive (code : Word16) (drive : Drive) (list : ListState) : State :=
  held 0x001 (fun u =>
    { withList (testStep 30 0 0 .none false true) .single .stop list u with
      config := testConfig .fallback .rampFallback true, code := code, drive := drive })

/-- A move of origin WRITE toward 100. -/
def writeMove (due : Bool) : Drive :=
  .moving { target := 100, rate := 40, origin := .write, checkRequired := true, advanceDue := due }

/-- The requests on CH0 by its holder pass their heads, in every state of its drive and list. -/
theorem test_hyp_ChannelRequests :
    ([.setRange .m0 0 0 1000 500 7, .setRange .m0 0 7 7 7 0, .setPolicy .m0 0 1 0 0 0 0 0, .write .m0 0 1000 0, .write .m0 0 1001 0,
      .write .m0 0 100 7, .clearFault .m0 0, .loadStep .m0 0 15 1000 0 0 0, .loadStep .m0 0 0 1001 0 0 0,
      .setList .m0 0 1 0 0 0 0, .setList .m0 0 16 0 0 0 0] : List Instr).all
        (fun i =>
          [onDrive 100 .steady .loaded, onDrive 0 (writeMove false) .loaded, onDrive 0 .steady (.armed .trg0)].all (fun s =>
            decide (PassesHead i .m0 (arrives i s)) && decide (s.holder 0 = some .m0))) = true := by
  decide +kernel

/-- The states that tell their clauses apart: configurable or not, code inside or outside, slots loaded or not. -/
theorem test_hyp_ChannelClauses :
    ((onDrive 100 .steady .loaded).channel 0).drive = .steady ∧ ((onDrive 100 .steady .loaded).channel 0).list.active = false ∧
      ((onDrive 0 (writeMove false) .loaded).channel 0).drive ≠ .steady ∧
        ((onDrive 0 .steady (.armed .trg0)).channel 0).list.active = true ∧
          ((onDrive 100 .steady .loaded).channel 0).faultLatch = false ∧
            ((onDrive 100 .steady .loaded).channel 0).config.range.high = 1000 ∧ ¬ (1001#16 ≤ 1000) ∧ ¬ (7#16 ≤ 100 ∧ 100#16 ≤ 7) ∧
              ((onDrive 100 .steady .loaded).channel 0).slots[0] ≠ none ∧
                ((onDrive 100 .steady .loaded).channel 0).slots[1] = none ∧
                  ((held 0x001 (fun u => { u with faultLatch := true })).channel 0).faultLatch = true := by
  decide +kernel

/-- Effective rate 0, a target that is held already, and a move that runs, with check writes yes and no (R80). -/
theorem test_hyp_WriteOutcomes :
    effectiveRate 0 ((held 0x001 id).channel 0).config.range.maxRate = 0 ∧
      ((held 0x001 id).channel 0).config.policy.checkWrites = false ∧
        effectiveRate 0 ((onDrive 100 .steady .loaded).channel 0).config.range.maxRate ≠ 0 ∧
          ((onDrive 100 .steady .loaded).channel 0).code = 100 ∧
            ((onDrive 100 .steady .loaded).channel 0).config.policy.checkWrites = true := by
  decide +kernel

theorem test_hyp_RecordBytesAsSent :
    ([.setRange .m0 11 7 7 7 65535, .setPolicy .m0 11 255 2 15 7 2 2, .loadStep .m0 11 15 1 2 3 15,
      .setList .m0 11 16 1 65535 2 1] : List Instr).all Instr.parametersOk = true := by
  decide

/-- A move of the origin, of rate 40 toward 100, with an advance due. -/
def moveDue (origin : MoveOrigin) (check : Bool) : Drive :=
  .moving { target := 100, rate := 40, origin := origin, checkRequired := check, advanceDue := true }

/-- From 59 the target is not reached at rate 40, and from 60 it is; a step's move has its list in phase MOVE. -/
theorem test_hyp_MoveAdvanceOutcomes :
    ((onDrive 59 (moveDue .write true) .loaded).channel 0).drive = moveDue .write true ∧ (40 < (100#16 - 59#16).toNat) ∧
      ((100#16 - 60#16).toNat ≤ 40) ∧ ((140#16 - 100#16).toNat ≤ 40) ∧
        ((onDrive 60 (moveDue .fallback false) .loaded).channel 0).drive = moveDue .fallback false ∧
          ((onDrive 60 (moveDue .step true) (.running (testRuntime .move none none))).channel 0).list =
            .running (testRuntime .move none none) ∧
            ((onDrive 60 (writeMove false) .loaded).channel 0).drive = writeMove false := by
  decide +kernel

theorem test_hyp_MoveTakesRoundedUpAdvances : (40 : Word16) ≠ 0 := by decide

/-- Verdicts that count and that do not; attempts below and above the retry limit; both origins; a check not yet due. -/
theorem test_hyp_SettleExpiry :
    ((onDrive 100 (checkDue .write 1 none) .loaded).channel 0).drive = checkDue .write 1 none ∧
      (4#3 &&& ((onDrive 100 (checkDue .write 1 none) .loaded).channel 0).config.policy.counted ≠ 0) ∧
        ((1 : Byte) ≤ ((onDrive 100 (checkDue .write 1 none) .loaded).channel 0).config.policy.retryLimit) ∧
          (((onDrive 100 (checkDue .write 1 none) .loaded).channel 0).config.policy.retryLimit < (2 : Byte)) ∧
            (onDrive 100 (checkDue .write 1 none) .loaded).holder 0 = some .m0 ∧
              (0#3 &&& 7#3 = 0) ∧
                ((onDrive 30 (checkDue .step 2 (some { raw := 1, counted := 1 }))
                    (.paused (testRuntime .check none none))).channel 0).list = .paused (testRuntime .check none none) ∧
                  ((onDrive 30 (checkDue .step 2 (some { raw := 1, counted := 1 }))
                    (.running (testRuntime .check none none))).channel 0).drive =
                      checkDue .step 2 (some { raw := 1, counted := 1 }) := by
  decide +kernel

/-- The on-fault rules, the revoke actions, and a fallback code that is held or not. -/
theorem test_hyp_ActionsAndOrders :
    let u := (onDrive 100 .steady .loaded).channel 0
    u.config.policy.revokeAction = .rampFallback ∧ u.config.range.maxRate ≠ 0 ∧ u.config.range.fallback ≠ u.code ∧
      ((State.reset).channel 0).config.policy.revokeAction = .hold ∧ (State.reset.channel 0).config.range.maxRate = 0 ∧
        (testConfig .hold .fallback true).policy.revokeAction = .fallback ∧ u.drive = .steady ∧
          u.descriptor.onFault = .stop ∧
            (withList (testStep 30 0 0 .none true true) .single .continue .loaded u).descriptor.onFault ≠ .stop := by
  decide +kernel

/-! ### Lists -/

/-- A unit that runs a one-step list, in the phase, with the dwell timer and the pending stop. -/
def running (mode : ListMode) (phase : RunPhase) (dwell : Option Word16) (stop : Option StopReason) : ChannelUnit :=
  withList (testStep 30 5 0 .none false true) mode .stop (.running (testRuntime phase dwell stop)) ChannelUnit.reset

/-- Steps that move, that jump, and that are at their target, with and without a check. -/
theorem test_hyp_StepStart :
    (running .single .move none none).slots[(testRuntime .move none none).index] = some (testStep 30 5 0 .none false true) ∧
      effectiveRate 5 (running .single .move none none).config.range.maxRate ≠ 0 ∧
        (30#16 ≠ (running .single .move none none).code) ∧
          effectiveRate 0 (running .single .move none none).config.range.maxRate = 0 ∧
            (withList (testStep 0 5 0 .trg0 true true) .single .stop .loaded ChannelUnit.reset).slots[0] =
              some (testStep 0 5 0 .trg0 true true) := by
  decide +kernel

/-- A step that ends, the last of its pass, under each mode and pending stop, with and without a gap. -/
theorem test_hyp_StepAndPassEnd :
    (running .single .hold none none).endingStep = some (testRuntime .hold none none, testStep 30 5 0 .none false true) ∧
      (running .single .move none none).endingStep = none ∧
        (running .single .hold none none).descriptor.count.toNat ≤ (testRuntime .hold none none).index.val + 1 ∧
          (running .cyclic .hold none (some .fault)).endingStep.isSome = true ∧
            (running .cyclic .hold none none).descriptor.mode = .cyclic ∧
              max (running .cyclic .hold none none).descriptor.period.toNat 1 - (4#32 - 0#32).toNat = 0 ∧
                max (running .cyclic .hold none none).descriptor.period.toNat 1 - (3#32 - 0#32).toNat ≠ 0 ∧
                  ({ (running .cyclic .hold none none) with
                    descriptor := { (running .cyclic .hold none none).descriptor with count := 16 } } :
                      ChannelUnit).descriptor.count.toNat = 16 := by
  decide +kernel

/-- The requests over {CH0} by its holder pass their heads, with the lists that their clauses name. -/
theorem test_hyp_ListRequests :
    ([(.start .m0 0x001 0, onDrive 100 .steady .loaded), (.start .m0 0x001 1, onDrive 100 .steady .loaded),
      (.start .m0 0x001 2, onDrive 100 .steady .empty),
      (.start .m0 0x001 0, held 0x001 (fun u => { u with faultLatch := true })),
      (.stop .m0 0x001 0, onDrive 100 .steady (.armed .trg1)), (.stop .m0 0x001 1, onDrive 100 .steady .loaded),
      (.stop .m0 0x001 1, onDrive 30 .steady (.running (testRuntime (.gap 3) none none))),
      (.stop .m0 0x001 1, onDrive 30 .steady (.paused (testRuntime .hold (some 5) (some .fault)))),
      (.pause .m0 0x001, onDrive 30 .steady (.running (testRuntime .hold (some 5) none))),
      (.pause .m0 0x001, onDrive 30 .steady .loaded),
      (.resume .m0 0x001 0, onDrive 30 .steady (.paused (testRuntime .hold (some 5) none))),
      (.resume .m0 0x001 1, onDrive 30 .steady (.paused (testRuntime (.gap 0) none none))),
      (.resume .m0 0x001 1, onDrive 30 .steady .loaded),
      (.proceed .m0 0x001, onDrive 30 .steady .loaded)] : List (Instr × State)).all
        (fun x => decide (PassesHead x.1 .m0 (arrives x.1 x.2)) && decide (x.2.holder 0 = some .m0)) = true ∧
      ∀ c : Ch, (0x001#16).getLsbD c.val = true → c = 0 := by
  decide +kernel

/-- A step that waits for PROCEED, and one that waits for an edge on TRG1 (R117, R118). -/
theorem test_hyp_ProceedAndEdges :
    let u := withList (testStep 30 0 0 .proceed false true) .single .stop (.running (testRuntime .hold none none)) ChannelUnit.reset
    let v := withList (testStep 30 0 0 .trg1 false true) .single .stop (.running (testRuntime .move none none)) ChannelUnit.reset
    u.list = .running (testRuntime .hold none none) ∧ (testRuntime .hold none none).proceedSeen = false ∧
      u.slots[(0 : Fin 16)] = some (testStep 30 0 0 .proceed false true) ∧
        v.slots[(0 : Fin 16)].map (fun st => st.hold.line) = some (some .trg1) ∧
          (testRuntime .move none none).triggerSeen = false := by
  decide +kernel

/-- A dwell and a gap that have run out, and ones that have not. -/
theorem test_hyp_DwellAndGap :
    ((onDrive 30 .steady (.running (testRuntime .hold (some 0) none))).channel 0).list =
        .running (testRuntime .hold (some 0) none) ∧
      (testRuntime .hold (some 1) none).dwellTimer ≠ some 0 ∧ (testRuntime (.gap 0) none none).phase = .gap 0 ∧
        (testRuntime (.gap 1) none none).phase ≠ .gap 0 := by
  decide +kernel

/-- A transition held 1999 ns and one held 2000 ns, to another level and to the same; a selection that matches and one that does
not. -/
theorem test_hyp_TriggerTransition :
    State.reset.inReset = false ∧ (1999 < 2000) ∧ (2000 ≤ 2000) ∧ Level.high ≠ (State.reset.line .trg1).level ∧
      Level.low = (State.reset.line .trg1).level ∧ (State.reset.line .trg1).selection = .rising ∧
        (State.reset.setLine .trg1 { selection := .falling, level := .low }).line .trg1 =
          { selection := .falling, level := .low } := by
  decide +kernel

/-! ### Log, device, laws -/

/-- An empty log, and a full one whose oldest record a cursor designates. -/
def logOf (n : Nat) : State :=
  { State.reset with
    log :=
      { records := (List.range n).map (fun k => { seq := BitVec.ofNat 16 k, tag := 0, body := .softReset .m0 })
        nextSeq := BitVec.ofNat 16 n, readers := .all { cursor := 0, threshold := 64, gap := false } } }

theorem test_hyp_LogLaw : ∀ n ∈ [0, 1, 63, 64], LogLaw (logOf n) := by
  intro n hn
  have hu : ∀ m, (logOf n).log.readers.get m = { cursor := 0, threshold := 64, gap := false } := by intro m; cases m <;> rfl
  have hr : ∀ k, k ∈ [0, 1, 63, 64] →
      (logOf k).log.records.length ≤ Config.logCapacity ∧
        (∀ j (h : j < (logOf k).log.records.length),
          (logOf k).log.records[j].seq = (logOf k).log.nextSeq - BitVec.ofNat 16 ((logOf k).log.records.length - j)) ∧
          (logOf k).log.unread { cursor := 0, threshold := 64, gap := false } ≤ (logOf k).log.records.length := by
    decide +kernel
  obtain ⟨h1, h2, h3⟩ := hr n hn
  exact ⟨h1, h2, fun m => by rw [hu m]; exact ⟨h3, by decide⟩⟩

/-- Full and not full; a cursor at the oldest record; unread counts 0 and 64; a threshold above 0, just reached. -/
theorem test_hyp_AppendRecord :
    (logOf 64).log.records.length = 64 ∧ (logOf 63).log.records.length ≠ 64 ∧
      ((logOf 64).log.readers.get .m1).cursor = (logOf 64).log.nextSeq - 64 ∧
        ((logOf 63).log.readers.get .m1).threshold ≠ 0 ∧
          ((State.append (.softReset .m0) (logOf 63)).log.nextSeq - 0).toNat = 64 := by
  decide +kernel

theorem test_hyp_LogRequests :
    ([.readLog .m1 0, .readLog .m1 1, .setLogThreshold .m1 64, .setLogThreshold .m1 0] : List Instr).all
        (fun i => [logOf 0, logOf 64].all (fun s => decide ((arrives i s).frameEnd .m1 = some i))) = true ∧
      ((logOf 0).log.nextSeq - ((logOf 0).log.readers.get .m1).cursor).toNat = 0 ∧
        ((logOf 64).log.nextSeq - ((logOf 64).log.readers.get .m1).cursor).toNat ≠ 0 := by
  decide +kernel

theorem test_hyp_DeviceRequests :
    (∀ c : Ch, (held allSet id).holder c = some .m0) ∧
      PassesHead (.setTriggers .m0 2 0) .m0 (arrives (.setTriggers .m0 2 0) (held allSet id)) ∧
        EdgeSelection.both.code = 2 ∧ EdgeSelection.rising.code = 0 ∧
          PassesHead (.resetDevice .m0) .m0 (arrives (.resetDevice .m0) (held allSet id)) := by
  decide +kernel

/-- A millisecond that can end, with every kind of timer in it, and one that cannot. -/
theorem test_hyp_TimeTagAdvance :
    let s := withEntry 2 (entryAt 2 .m2 0x002 (.offered 9 0 .m1 4))
      (withEntry 1 (entryAt 1 .m1 0x001 (.pending (some { limit := 9, remaining := 1 }) none))
        (onDrive 30 .steady (.running (testRuntime (.gap 1) none none))))
    s.inReset = false ∧ s.anyDue = false ∧ (onDrive 0 (moveDue .write true) .loaded).anyDue = true ∧
      (onDrive 0 (writeMove false) .loaded).anyDue = false := by
  decide +kernel

/-! ### Laws -/

/-- A part at work, with a command in its queue: M0 holds CH0, whose list runs; M1 waits for CH0; M2 is BARRED; a record is in
the log. -/
def atWork : State :=
  { ((withEntry 1 (entryAt 1 .m1 0x001 (.pending (some { limit := 9, remaining := 4 }) none))
      (held 0x001 (fun u =>
        { withList (testStep 30 40 5 .none true true) .cyclic .stop (.running (testRuntime .move (some 3) none)) u with
          config := testConfig .fallback .rampFallback true
          digest := crc16 (testConfig .fallback .rampFallback true).bytes
          drive := .moving { target := 30, rate := 20, origin := .step, checkRequired := true, advanceDue := true } }))).setRevoke
        .m2 .barred).raise .m2 .revoked with
    pending := [.moveAdvance 0]
    log :=
      { records := [{ seq := 0xFFFF, tag := 7, body := .softReset .m0 }], nextSeq := 0
        readers := .all { cursor := 0xFFFF, threshold := 64, gap := true } } }

/-- Its step has a next state. -/
theorem test_hyp_step_of_atWork :
    (match step atWork with
      | .next t => decide ((t.channel 0).code = 20)
      | .fault _ | .refused _ => false) = true := by
  decide +kernel

/-- Its claim table. -/
theorem atWork_entry (p : Pos) (e : ClaimEntry) (h : atWork.entry p = some e) :
    (p = 0 ∧ e = entryAt 0 .m0 0x001 (.held 10 0)) ∨
      (p = 1 ∧ e = entryAt 1 .m1 0x001 (.pending (some { limit := 9, remaining := 4 }) none)) := by
  fin_cases p
  · exact .inl ⟨rfl, (Option.some.inj h).symm⟩
  · exact .inr ⟨rfl, (Option.some.inj h).symm⟩
  all_goals cases h

theorem test_hyp_claim_laws : ClaimTableLaw atWork ∧ NoneGrantable atWork := by
  refine ⟨⟨⟨by decide +kernel, ?_, ?_⟩, ?_, ⟨by decide +kernel, ?_, ?_⟩, ?_, ?_⟩, ?_⟩
  · intro p e h
    rcases atWork_entry p e h with ⟨_, rfl⟩ | ⟨_, rfl⟩ <;> decide
  · intro p q e f he hf hn
    rcases atWork_entry p e he with ⟨rfl, rfl⟩ | ⟨rfl, rfl⟩ <;> rcases atWork_entry q f hf with ⟨rfl, rfl⟩ | ⟨rfl, rfl⟩ <;>
      first | rfl | exact absurd hn (by decide)
  · intro p q e f he hf h1 h2 hne
    rcases atWork_entry p e he with ⟨rfl, rfl⟩ | ⟨rfl, rfl⟩ <;> rcases atWork_entry q f hf with ⟨rfl, rfl⟩ | ⟨rfl, rfl⟩ <;>
      first | exact absurd rfl hne | exact absurd h1 (by decide) | exact absurd h2 (by decide)
  · intro p
    constructor
    · intro hp
      have : p = 1 := by
        have h1 : atWork.claims.order = [1] := by decide +kernel
        rw [h1] at hp
        exact List.mem_singleton.mp hp
      subst this
      exact ⟨_, rfl, rfl⟩
    · rintro ⟨e, he, hp⟩
      rcases atWork_entry p e he with ⟨rfl, rfl⟩ | ⟨rfl, rfl⟩
      · exact absurd hp (by decide)
      · decide +kernel
  · intro p q e f he hf h1 h2 _
    rcases atWork_entry p e he with ⟨rfl, rfl⟩ | ⟨rfl, rfl⟩ <;> rcases atWork_entry q f hf with ⟨rfl, rfl⟩ | ⟨rfl, rfl⟩ <;>
      first | rfl | exact absurd h1 (by decide) | exact absurd h2 (by decide)
  · intro p e h
    rcases atWork_entry p e h with ⟨_, rfl⟩ | ⟨_, rfl⟩
    · exact ⟨by decide, by decide, show (10 : Word16) ≤ 10 by decide⟩
    · exact ⟨by decide, by decide, show (9 : Word16) ≠ 0 ∧ (4 : Word16) ≤ 9 by decide⟩
  · intro p q e f he hf h1 h2 hm
    rcases atWork_entry p e he with ⟨rfl, rfl⟩ | ⟨rfl, rfl⟩ <;> rcases atWork_entry q f hf with ⟨rfl, rfl⟩ | ⟨rfl, rfl⟩ <;>
      first | exact absurd h1 (by decide) | exact absurd hm (by decide) | exact absurd h2 (by decide)
  · intro p e hp he
    rcases atWork_entry p e he with ⟨rfl, rfl⟩ | ⟨rfl, rfl⟩
    · exact absurd hp (by decide +kernel)
    · decide +kernel

theorem test_hyp_notice_laws : LineLaw atWork ∧ MaskLaw atWork ∧ RevokeLaw atWork := by
  have none_pending : ∀ k : Notice, ¬ k.isIn 0 := by intro k; cases k <;> decide
  refine ⟨?_, ?_, ?_⟩
  · intro m
    cases m
    · exact ⟨fun h => absurd h (by decide +kernel), fun ⟨k, hk, _⟩ => absurd hk (none_pending k)⟩
    · exact ⟨fun h => absurd h (by decide +kernel), fun ⟨k, hk, _⟩ => absurd hk (none_pending k)⟩
    · exact ⟨fun _ => ⟨.revoked, by decide +kernel, .inl rfl⟩, fun _ => by decide +kernel⟩
  · intro m
    cases m <;> decide +kernel
  · intro m
    cases m <;> decide +kernel

theorem test_hyp_log_and_port_laws : LogLaw atWork ∧ PortLaw atWork := by
  have records : ∀ j (h : j < atWork.log.records.length),
      atWork.log.records[j].seq = atWork.log.nextSeq - BitVec.ofNat 16 (atWork.log.records.length - j) := by decide +kernel
  refine ⟨⟨by decide, records, ?_⟩, ?_⟩
  · intro m
    cases m <;> decide
  · intro m
    cases m <;> exact ⟨by decide +kernel, by decide +kernel, by decide +kernel⟩

/-- The laws of a channel unit, at the unit of CH0 and at a unit of the others. -/
theorem test_hyp_channel_laws :
    (∀ c : Ch, c ≠ 0 → atWork.channel c = ChannelUnit.reset) ∧
      ∀ u ∈ [atWork.channel 0, ChannelUnit.reset], RangeLaw u ∧ ConfigLaw u ∧ CheckLaw u ∧ CourseLaw u := by
  refine ⟨?_, ?_⟩
  · intro c hc
    fin_cases c <;> first | exact absurd rfl hc | rfl
  · intro u hu
    simp only [List.mem_cons, List.not_mem_nil, or_false] at hu
    rcases hu with rfl | rfl
    · refine ⟨⟨by decide +kernel, by decide +kernel, ?_, ⟨by decide +kernel, by decide +kernel, by decide +kernel⟩⟩,
        ⟨by decide +kernel, by decide +kernel, by decide +kernel⟩, trivial,
        fun _ => ⟨by decide +kernel, by decide +kernel, by decide +kernel, ?_⟩, rfl, by decide +kernel⟩
      · intro n st h
        fin_cases n
        · cases h; decide
        all_goals cases h
      · intro r h
        cases h
        decide +kernel
    · refine ⟨⟨by decide +kernel, by decide +kernel, ?_, trivial⟩,
        ⟨by decide +kernel, by decide +kernel, by decide +kernel⟩, trivial, fun h => absurd rfl h, ⟨nofun, nofun⟩,
        by decide +kernel⟩
      intro n st h
      fin_cases n <;> cases h

theorem test_hyp_FreeLaw : FreeLaw atWork := by
  intro c hc
  fin_cases c
  · exact absurd hc (by decide +kernel)
  all_goals exact ⟨rfl, trivial⟩

/-- The part held in full reset. -/
theorem test_hyp_HeldLaw : HeldLaw (fullResetState [.timeTagAdvance] true .high .low) := fun _ => rfl

end Sys2Proof.Tests
end

section
/-!
The head of the check order (R38, R171, R174): a request meets its parameters, then the revoke state of its sender, and an
exempt one that passes both is answered OK.
-/

namespace Sys2Proof.Machine

/-- The status of an answer is byte 1 of the port's response, whatever its results are (R173). -/
@[simp] theorem State.respond_statusByte (s : State) (m : Master) (code : Byte) (a : Answer) :
    byteAt ((s.respond m code a).port m).response 1 = a.status.code := by
  have hport : (s.respond m code a).port m = (s.port m).respond code a := State.port_setPort_same ..
  rw [hport]
  rfl

/-- A READ_CLAIM is answered OK whether or not its entry is there (R27). -/
theorem takeReadClaim_ok (selector value : Byte) (s : State) : (takeReadClaim selector value s).2.status = .ok := by
  unfold takeReadClaim
  split <;> rfl

/-- A command that is the frame end at hand at a port names that port's master. -/
theorem State.frameEnd_master_eq {s : State} {m n : Master} {i : Instr} (hf : s.frameEnd m = some i)
    (hn : i.frameMaster = some n) : n = m := Option.some.inj (hn.symm.trans (State.frameEnd_frameMaster hf))

/-- The request whose frame ends at the port of `m` is judged there. -/
theorem exec_request_at {i : Instr} {m : Master} {code : Byte} {s : State} (hf : s.frameEnd m = some i)
    (hc : i.requestCode = some code) : ∃ take, exec i s = request i m take s := by
  obtain ⟨n, take, hn, hexec⟩ := exec_request hc
  obtain rfl := State.frameEnd_master_eq hf hn
  exact ⟨take, hexec s⟩

/-- A malformed request is answered BAD_PARAMETER, whichever request it is (R174). -/
theorem exec_malformed {i : Instr} {m : Master} {code : Byte} {s : State} (hf : s.frameEnd m = some i)
    (hc : i.requestCode = some code) (hp : i.parametersOk = false) :
    exec i s = .next ((s.endFrame m).respond m code (.refuse .badParameter)) := by
  obtain ⟨take, hexec⟩ := exec_request_at hf hc
  rw [hexec, request_malformed hf hp, hc, Option.getD_some]

/-- A well-formed request that is not exempt is answered BARRED to a BARRED master, whichever request it is (R38). -/
theorem exec_barred {i : Instr} {m : Master} {code : Byte} {s : State} (hf : s.frameEnd m = some i)
    (hc : i.requestCode = some code) (hp : i.parametersOk = true) (hi : i.barrable = true) (hb : s.barred m = true) :
    exec i s = .next ((s.endFrame m).respond m code (.refuse .barred)) := by
  obtain ⟨take, hexec⟩ := exec_request_at hf hc
  rw [hexec, request_barred hf hp hi hb, hc, Option.getD_some]

/-- The rule that owns an exempt request has no check of its own: past the head of the check order, its answer is OK. -/
theorem exec_exempt {i : Instr} {code : Byte} (hc : i.requestCode = some code) (he : i.barrable = false) :
    ∃ m take, i.frameMaster = some m ∧ (∀ s, exec i s = request i m take s) ∧ ∀ s, (take s).2.status = .ok := by
  cases i
  case readClaim => exact ⟨_, _, rfl, fun _ => rfl, takeReadClaim_ok _ _⟩
  case nop | ackRevoke | readChannel | readConfig | readDigest | readStep | readLog | setLogThreshold | readNotices |
      ackNotices | setNoticeMask | readPortError | clearPortError | readTime =>
    exact ⟨_, _, rfl, fun _ => rfl, fun _ => rfl⟩
  case claim | renew | release | withdraw | offer | accept | setRange | setPolicy | write | clearFault | loadStep |
      setList | start | stop | pause | resume | proceed | setTriggers | resetDevice => nomatch he
  all_goals nomatch hc

/-- A well-formed exempt request is taken and answered OK, whether its sender is BARRED or not (R38). -/
theorem exec_exempt_ok {i : Instr} {m : Master} {code : Byte} {s : State} (hf : s.frameEnd m = some i)
    (hc : i.requestCode = some code) (hp : i.parametersOk = true) (he : i.barrable = false) :
    ∃ t, exec i s = .next t ∧ byteAt (t.port m).response 1 = 0x00 := by
  obtain ⟨n, take, hn, hexec, hok⟩ := exec_exempt hc he
  obtain rfl := State.frameEnd_master_eq hf hn
  have hpass : PassesHead i n s := ⟨hf, hp, fun hi => absurd (he.symm.trans hi) Bool.false_ne_true⟩
  refine ⟨_, (hexec s).trans (request_passes hpass), ?_⟩
  rw [State.respond_statusByte, hok]
  rfl

/-- The codes of the requests that a BARRED master may still make, in R190's order (R38). -/
def exemptCodes : List Byte :=
  [0x00, 0x16, 0x17, 0x24, 0x25, 0x26, 0x37, 0x40, 0x41, 0x50, 0x51, 0x52, 0x60, 0x61, 0x62]

/-- `barrable` and `requestCode` are two tables over the same commands; row by row, the exempt requests are those of the
listed codes. -/
theorem barrable_eq_not_mem_exemptCodes {i : Instr} {code : Byte} (hc : i.requestCode = some code) :
    i.barrable = !decide (code ∈ exemptCodes) := by
  cases i <;> cases hc <;> rfl

/-- Settles O9: each clause is one check of the head, in the order in which a request meets them. -/
theorem headOfCheckOrder : Obligations.HeadOfCheckOrder := by
  refine ⟨fun m code s hf => ?unknown, fun i m code s hf hc => ⟨?malformed, ?barred, ?exempt⟩, fun i code hc => ?codes⟩
  case unknown => exact atFrameEnd_taken hf
  case malformed => exact exec_malformed hf hc
  case barred => exact exec_barred hf hc
  case exempt => exact exec_exempt_ok hf hc
  case codes =>
    rw [barrable_eq_not_mem_exemptCodes hc, Bool.not_eq_false', decide_eq_true_iff]
    rfl

end Sys2Proof.Machine
end

section
/-!
The drive's rates, actions and orders (R75, R92 to R96): what each leaves of the whole channel unit.
-/

namespace Sys2Proof.Machine

/-! ## The effective rate of a move (R75) -/

@[simp] theorem effectiveRate_of_not_requested (m : Word16) : effectiveRate 0 m = m := if_pos rfl

/-- With no max rate, the requested rate counts, 0 included: the move is then a jump. -/
@[simp] theorem effectiveRate_of_no_max (r : Word16) : effectiveRate r 0 = r := by
  by_cases hr : r = 0
  · rw [hr, effectiveRate_of_not_requested]
  · rw [effectiveRate, if_neg hr, if_pos rfl]

theorem effectiveRate_of_both {r m : Word16} (hr : r ≠ 0) (hm : m ≠ 0) :
    effectiveRate r m = if r ≤ m then r else m := by
  rw [effectiveRate, if_neg hr, if_neg hm]

/-- Settles O29: a rate that is 0 leaves the other one to count, whatever that is. -/
theorem effectiveRate_spec : Obligations.EffectiveRate := by
  refine fun r m => ⟨?noRequest, ?noMax, effectiveRate_of_both⟩
  case noRequest => rintro rfl; exact effectiveRate_of_not_requested m
  case noMax => rintro - rfl; exact effectiveRate_of_no_max r

/-! ## Fallback moves (R94) -/

/-- A fallback move in progress, just started: at the max rate, with no check required. -/
def ChannelUnit.fallbackMove (u : ChannelUnit) : Drive :=
  .moving
    { target := u.config.range.fallback, rate := u.config.range.maxRate, origin := .fallback, checkRequired := false
      advanceDue := false }

/-- Where there is no max rate, or no way to go, the ramp ends in its starting event (R76). -/
theorem ChannelUnit.applyAction_rampFallback_ends {u : ChannelUnit}
    (h : u.config.range.maxRate = 0 ∨ u.config.range.fallback = u.code) :
    u.applyAction .rampFallback = { u with code := u.config.range.fallback, drive := .steady } := by
  rcases u.startMove_cases u.config.range.fallback .fallback 0 false with ends | ⟨hrate, hway, -⟩
  · exact ends
  · rw [effectiveRate_of_not_requested] at hrate
    exact absurd h (not_or.mpr ⟨hrate, hway⟩)

theorem ChannelUnit.applyAction_rampFallback_runs {u : ChannelUnit} (hrate : u.config.range.maxRate ≠ 0)
    (hway : u.config.range.fallback ≠ u.code) : u.applyAction .rampFallback = { u with drive := u.fallbackMove } := by
  have hnot : ¬ (u.config.range.maxRate = 0 ∨ u.config.range.fallback = u.code) := not_or.mpr ⟨hrate, hway⟩
  simp only [ChannelUnit.applyAction, ChannelUnit.startMove, effectiveRate_of_not_requested, if_neg hnot,
    ChannelUnit.fallbackMove]

/-! ## The other two actions (R92) -/

/-- The HOLD action stops whatever the drive is doing, when no check is in flight (R78). -/
theorem ChannelUnit.applyAction_hold {u : ChannelUnit} (h : ∀ ck, u.drive ≠ .checking ck) :
    u.applyAction .hold = { u with drive := .steady } := by
  obtain ⟨_, _, _, drive⟩ := u
  cases drive with
  | steady => rfl
  | moving mv => rfl
  | checking ck => exact absurd rfl (h ck)

theorem ChannelUnit.applyAction_fallback (u : ChannelUnit) :
    u.applyAction .fallback = { u with code := u.config.range.fallback, drive := .steady } := rfl

/-! ## The orders (R95, R96) -/

/-- The list that an order leaves: one under way is LOADED again. -/
def ListState.aborted (l : ListState) : ListState := if l.active then .loaded else l

theorem ChannelUnit.abortList_eq (u : ChannelUnit) : u.abortList = { u with list := u.list.aborted } := by
  by_cases h : u.list.active = true
  · rw [ChannelUnit.abortList, ListState.aborted, if_pos h, if_pos h]
  · rw [ChannelUnit.abortList, ListState.aborted, if_neg h, if_neg h]

/-- Cancelling a check touches the drive only, and leaves no check in flight (R88). -/
theorem ChannelUnit.cancelCheck_eq (u : ChannelUnit) :
    ∃ d, (∀ ck, d ≠ .checking ck) ∧ u.cancelCheck = { u with drive := d } := by
  refine ⟨u.cancelCheck.drive, fun ck => ?_, ?_⟩
  · rcases u.cancelCheck_drive with e | ⟨mv, -, e⟩ <;> rw [e] <;> exact nofun
  · obtain ⟨_, _, _, drive⟩ := u
    cases drive <;> rfl

/-- A revoke order is the revoke action, on the unit with its list aborted and no check in flight (R96). -/
theorem ChannelUnit.revokeOrder_eq (u : ChannelUnit) :
    ∃ d, (∀ ck, d ≠ .checking ck) ∧
      u.revokeOrder = { u with list := u.list.aborted, drive := d }.applyAction u.config.policy.revokeAction := by
  obtain ⟨d, hd, e⟩ := u.abortList.cancelCheck_eq
  refine ⟨d, hd, ?_⟩
  rw [ChannelUnit.revokeOrder, e, u.abortList_eq]

theorem ChannelUnit.releaseOrder_hold_eq (u : ChannelUnit) :
    u.releaseOrder .hold = { u with list := u.list.aborted, drive := .steady } := by
  rw [ChannelUnit.releaseOrder, ChannelUnit.holdOrder, u.abortList_eq]

/-- Settles O36: an order is its action on a unit with the list aborted and no check in flight, so the orders and the actions
on a steady drive rest on the same four outcomes of the actions. -/
theorem ordersAndActions : Obligations.OrdersAndActions := by
  intro u
  obtain ⟨d, hd, horder⟩ := u.revokeOrder_eq
  refine ⟨u.releaseOrder_hold_eq, rfl, fun h => ?hold, fun h => ?fallback, fun h hends => ?rampEnds,
    fun h hrate hway => ?rampRuns, fun hsteady => ?steady⟩
  case hold => rw [horder, h]; exact ChannelUnit.applyAction_hold hd
  case fallback => rw [horder, h]; exact ChannelUnit.applyAction_fallback _
  case rampEnds => rw [horder, h]; exact ChannelUnit.applyAction_rampFallback_ends hends
  case rampRuns => rw [horder, h]; exact ChannelUnit.applyAction_rampFallback_runs hrate hway
  case steady =>
    have hno : ∀ ck, u.drive ≠ .checking ck := by rw [hsteady]; exact nofun
    have hself (code : Word16) : { u with code := code, drive := .steady } = { u with code := code } := by rw [← hsteady]
    exact ⟨(ChannelUnit.applyAction_hold hno).trans (hself u.code), hself u.config.range.fallback,
      fun hends => (ChannelUnit.applyAction_rampFallback_ends hends).trans (hself _),
      ChannelUnit.applyAction_rampFallback_runs⟩

end Sys2Proof.Machine
end

section
/-!
The end of a step and of a pass (R119, R120, R129 to R131): when a step ends, and what its end leaves and writes.
-/

namespace Sys2Proof.Machine

/-! ## When a step ends (R119) -/

theorem Runtime.holdMet_iff (r : Runtime) (h : HoldOn) :
    r.holdMet h = true ↔
      h = .none ∨ (h = .trg0 ∨ h = .trg1) ∧ r.triggerSeen = true ∨ h = .proceed ∧ r.proceedSeen = true := by
  cases h <;> simp [Runtime.holdMet]

/-- The current step of a RUNNING list that meets its three conditions is the one that ends: the converse of
`endingStep_spec`. -/
theorem ChannelUnit.endingStep_of_met {u : ChannelUnit} {r : Runtime} {st : StepRecord} (hlist : u.list = .running r)
    (hslot : u.slots[r.index] = some st) (hphase : r.phase = .hold) (hdwell : r.dwellTimer = none)
    (hmet : r.holdMet st.hold = true) : u.endingStep = some (r, st) := by
  simp only [ChannelUnit.endingStep, hlist, hslot]
  exact if_pos ⟨hphase, hdwell, hmet⟩

theorem ChannelUnit.endingStep_iff {u : ChannelUnit} {r : Runtime} {st : StepRecord} :
    u.endingStep = some (r, st) ↔
      u.list = .running r ∧ u.slots[r.index] = some st ∧ r.phase = .hold ∧ r.dwellTimer = none ∧
        r.holdMet st.hold = true :=
  ⟨ChannelUnit.endingStep_spec, fun ⟨hlist, hslot, hphase, hdwell, hmet⟩ =>
    ChannelUnit.endingStep_of_met hlist hslot hphase hdwell hmet⟩

/-- The first step of a chain ends, and up to 31 more end after it in the same event. -/
theorem ChannelUnit.finish_some {u : ChannelUnit} (tag : Word32) {r : Runtime} {st : StepRecord}
    (h : u.endingStep = some (r, st)) :
    u.finish tag =
      (((u.endStep tag r st).1.endSteps tag 31).1,
        (u.endStep tag r st).2 ++ ((u.endStep tag r st).1.endSteps tag 31).2) := by
  show u.endSteps tag (31 + 1) = _
  simp only [ChannelUnit.endSteps, h]

/-! ## The end of a step (R120) -/

theorem ChannelUnit.endStep_next (tag : Word32) {r : Runtime} (st : StepRecord) {u : ChannelUnit} {next : Fin 16}
    (hnext : next.val = r.index.val + 1) (hcount : next.val < u.descriptor.count.toNat) :
    u.endStep tag r st = (u.startStep tag { r with index := next }, u.stepDone r st) := by
  have hlt : r.index.val + 1 < 16 := hnext ▸ next.isLt
  obtain rfl : next = ⟨r.index.val + 1, hlt⟩ := Fin.ext hnext
  rw [ChannelUnit.endStep, dif_pos hlt, if_pos hcount]

/-- The last step of a pass ends the pass, after its own STEP_DONE. -/
theorem ChannelUnit.endStep_last (tag : Word32) {r : Runtime} (st : StepRecord) {u : ChannelUnit}
    (hlast : u.descriptor.count.toNat ≤ r.index.val + 1) :
    u.endStep tag r st = ((u.endPass tag r).1, u.stepDone r st ++ (u.endPass tag r).2) := by
  have hno : ¬ r.index.val + 1 < u.descriptor.count.toNat := Nat.not_lt.mpr hlast
  simp only [ChannelUnit.endStep, if_neg hno, dite_eq_ite, ite_self]

/-! ## The two courses of a pass end (R129, R130) -/

theorem ChannelUnit.endPass_single (tag : Word32) (r : Runtime) {u : ChannelUnit} (h : u.descriptor.mode = .single) :
    u.endPass tag r = u.endList r := by
  rw [ChannelUnit.endPass, h]

/-- A stop pending ends the list in either mode. -/
theorem ChannelUnit.endPass_stopPending (tag : Word32) {r : Runtime} {reason : StopReason} (u : ChannelUnit)
    (h : r.pendingStop = some reason) : u.endPass tag r = u.endList r := by
  rw [ChannelUnit.endPass, h]
  cases u.descriptor.mode <;> rfl

theorem ChannelUnit.endPass_cyclic (tag : Word32) {r : Runtime} {u : ChannelUnit} (hmode : u.descriptor.mode = .cyclic)
    (hstop : r.pendingStop = none) : u.endPass tag r = u.preparePass tag r := by
  rw [ChannelUnit.endPass, hmode, hstop]

theorem ChannelUnit.endList_complete {r : Runtime} (u : ChannelUnit) (h : r.pendingStop = none) :
    u.endList r = ({ u with list := .loaded }, [.record (.listEnd r.passCount), .notice .list]) := by
  rw [ChannelUnit.endList, h]

theorem ChannelUnit.endList_request {r : Runtime} (u : ChannelUnit) (h : r.pendingStop = some .request) :
    u.endList r =
      ({ u with list := .loaded }, [.record (.listStopped .request (some r.passCount) none), .notice .list]) := by
  rw [ChannelUnit.endList, h]

theorem ChannelUnit.endList_fault {r : Runtime} (u : ChannelUnit) (h : r.pendingStop = some .fault) :
    u.endList r =
      ({ u with list := .loaded }.applyAction u.config.policy.faultAction,
        [.record (.listStopped .fault (some r.passCount) none), .notice .list]) := by
  rw [ChannelUnit.endList, h]

/-! ## The next pass (R131) -/

/-- The gap is no longer than the larger of the period and 1, so that a 16-bit word holds it. -/
theorem gapAfter_toNat (period : Word16) (duration : Word32) :
    (gapAfter period duration).toNat = max period.toNat 1 - duration.toNat := by
  have := period.isLt
  rw [gapAfter, BitVec.toNat_ofNat]
  exact Nat.mod_eq_of_lt (by omega)

theorem gapAfter_eq_zero_iff {period : Word16} {duration : Word32} :
    gapAfter period duration = 0 ↔ max period.toNat 1 - duration.toNat = 0 := by
  rw [← BitVec.toNat_inj, gapAfter_toNat]
  rfl

theorem nextPassCount_eq (n : Word16) : nextPassCount n = if n = 65535 then 65535 else n + 1 := by
  unfold nextPassCount
  split
  case isTrue h => exact h
  case isFalse => rfl

/-- The runtime record with which the next pass begins or waits: the pass count one higher, and step 0 to come. -/
def Runtime.nextPass (r : Runtime) : Runtime := { r with passCount := nextPassCount r.passCount, index := 0 }

/-- A pass overruns when its list has a period and it lasted longer than that. -/
def passOverrun (period : Word16) (duration : Word32) : Bool :=
  decide (0 < period.toNat ∧ period.toNat < duration.toNat)

/-- The PASS_DONE record of a pass, if its list asks for it. -/
def ChannelUnit.passDone (tag : Word32) (r : Runtime) (u : ChannelUnit) : List ChannelEffect :=
  if u.descriptor.recordPasses = true then
    [.record (.passDone r.passCount (passOverrun u.descriptor.period (tag - r.passStart)))]
  else []

theorem passOverrun_eq (period : Word16) (duration : Word32) :
    passOverrun period duration = (decide (period ≠ 0) && decide (period.toNat < duration.toNat)) := by
  have hpos : 0 < period.toNat ↔ period ≠ 0 := by
    rw [Nat.pos_iff_ne_zero, ne_eq, ne_eq, ← BitVec.toNat_inj]
    rfl
  rw [passOverrun, Bool.decide_and]
  simp only [hpos]

theorem ChannelUnit.preparePass_eq (tag : Word32) (r : Runtime) (u : ChannelUnit) :
    u.preparePass tag r =
      if gapAfter u.descriptor.period (tag - r.passStart) = 0 then (u.beginPass tag r.nextPass, u.passDone tag r)
      else
        ({ u with list := .running { r.nextPass with phase := .gap (gapAfter u.descriptor.period (tag - r.passStart)) } },
          u.passDone tag r) := by
  rw [ChannelUnit.passDone, passOverrun_eq]
  rfl

theorem ChannelUnit.preparePass_atOnce {tag : Word32} {r : Runtime} {u : ChannelUnit}
    (h : max u.descriptor.period.toNat 1 - (tag - r.passStart).toNat = 0) :
    u.preparePass tag r = (u.beginPass tag r.nextPass, u.passDone tag r) := by
  rw [u.preparePass_eq, if_pos (gapAfter_eq_zero_iff.mpr h)]

theorem ChannelUnit.preparePass_afterGap {tag : Word32} {r : Runtime} {u : ChannelUnit}
    (h : max u.descriptor.period.toNat 1 - (tag - r.passStart).toNat ≠ 0) :
    u.preparePass tag r =
      ({ u with list := .running { r.nextPass with phase := .gap (gapAfter u.descriptor.period (tag - r.passStart)) } },
        u.passDone tag r) := by
  rw [u.preparePass_eq, if_neg (mt gapAfter_eq_zero_iff.mp h)]

/-- Settles O38: the three conditions of R119 say when a step ends; its end starts the next step or ends the pass, and the mode
and the pending stop choose the course of the pass end. -/
theorem stepAndPassEnd : Obligations.StepAndPassEnd := by
  refine fun tag r st u => ⟨?ends, ChannelUnit.finish_none tag, ChannelUnit.finish_some tag,
    fun next => ChannelUnit.endStep_next tag st, fun hlast => ?passEnd⟩
  case ends => rw [ChannelUnit.endingStep_iff, r.holdMet_iff]
  case passEnd =>
    have hend := ChannelUnit.endStep_last tag st hlast
    refine ⟨fun hmode hstop => ?single, fun hstop => ?request, fun hstop => ?fault,
      fun hmode hstop => ⟨fun hgap => ?atOnce, fun hgap => ?afterGap⟩⟩
    case single => rw [hend, ChannelUnit.endPass_single tag r hmode, u.endList_complete hstop]; rfl
    case request => rw [hend, u.endPass_stopPending tag hstop, u.endList_request hstop]; rfl
    case fault => rw [hend, u.endPass_stopPending tag hstop, u.endList_fault hstop]; rfl
    case atOnce =>
      rw [hend, ChannelUnit.endPass_cyclic tag hmode hstop, ChannelUnit.preparePass_atOnce hgap, ← nextPassCount_eq]
      rfl
    case afterGap =>
      rw [hend, ChannelUnit.endPass_cyclic tag hmode hstop, ChannelUnit.preparePass_afterGap hgap, ← nextPassCount_eq]
      rfl

end Sys2Proof.Machine
end

section
/-!
The completion log's append (R151, R152, R154): the place of the record, the readers it carries forward, and the masters that it
gives a LOG notice.
-/

namespace Sys2Proof.Machine

/-! ## The readers (R152) -/

theorem LogReader.carry_at {removed : Word16} {r : LogReader} (oldest : Word16) (h : r.cursor = removed) :
    r.carry removed oldest = { r with cursor := oldest, gap := true } := if_pos h

theorem LogReader.carry_elsewhere {removed : Word16} {r : LogReader} (oldest : Word16) (h : r.cursor ≠ removed) :
    r.carry removed oldest = r := if_neg h

/-! ## The full log (R148, R152) -/

/-- The oldest of 64 records, and the one after it, by their sequence numbers. -/
theorem LogLaw.oldest_of_full {s : State} (hlaw : LogLaw s) (hfull : s.log.records.length = 64) :
    ∃ removed oldest rest, s.log.records = removed :: oldest :: rest ∧
      removed.seq = s.log.nextSeq - 64 ∧ oldest.seq = s.log.nextSeq - 64 + 1 := by
  obtain ⟨-, hseq, -⟩ := hlaw
  match hrecords : s.log.records with
  | [] | [_] => simp [hrecords] at hfull
  | removed :: oldest :: rest =>
    have hlength : rest.length = 62 := by simpa [hrecords] using hfull
    simp only [hrecords] at hseq
    have hremoved : removed.seq = s.log.nextSeq - 64 := by simpa [hlength] using hseq 0 (by simp)
    have holdest : oldest.seq = s.log.nextSeq - 63 := by simpa [hlength] using hseq 1 (by simp)
    exact ⟨removed, oldest, rest, rfl, hremoved, by rw [holdest]; bv_omega⟩

/-- The append to a full log, with the sequence numbers that the law gives its two oldest records. -/
theorem LogLaw.append_full {s : State} (hlaw : LogLaw s) (hfull : s.log.records.length = 64) (tag : Word32)
    (b : RecordBody) :
    s.log.append tag b =
      { records := s.log.records.drop 1 ++ [{ seq := s.log.nextSeq, tag := tag, body := b }]
        nextSeq := s.log.nextSeq + 1
        readers := s.log.readers.mapWith (fun _ r => r.carry (s.log.nextSeq - 64) (s.log.nextSeq - 64 + 1)) } := by
  obtain ⟨removed, oldest, rest, hrecords, hremoved, holdest⟩ := hlaw.oldest_of_full hfull
  rw [CompletionLog.append_full tag b hrecords hfull.ge, hremoved, holdest, hrecords, List.drop_one, List.tail_cons]

/-- A lawful log that does not hold 64 records has room for one more. -/
theorem LogLaw.append_not_full {s : State} (hlaw : LogLaw s) (hroom : ¬ s.log.records.length = 64) (tag : Word32)
    (b : RecordBody) :
    s.log.append tag b =
      { records := s.log.records ++ [{ seq := s.log.nextSeq, tag := tag, body := b }], nextSeq := s.log.nextSeq + 1
        readers := s.log.readers } := by
  obtain ⟨hcapacity, -, -⟩ := hlaw
  exact CompletionLog.append_room tag b (lt_of_le_of_ne hcapacity hroom)

/-- A reader whose cursor designates the record removed is carried forward. -/
theorem LogLaw.append_reader_carried {s : State} (hlaw : LogLaw s) (hfull : s.log.records.length = 64) (tag : Word32)
    (b : RecordBody) {m : Master} (hcursor : (s.log.readers.get m).cursor = s.log.nextSeq - 64) :
    (s.log.append tag b).readers.get m =
      { s.log.readers.get m with cursor := s.log.nextSeq - 64 + 1, gap := true } := by
  rw [hlaw.append_full hfull, PerMaster.get_mapWith, LogReader.carry_at _ hcursor]

/-- Every other reader stands: no record is removed, or another one than its cursor designates. -/
theorem LogLaw.append_reader_kept {s : State} (hlaw : LogLaw s) (tag : Word32) (b : RecordBody) {m : Master}
    (h : ¬ s.log.records.length = 64 ∨ (s.log.readers.get m).cursor ≠ s.log.nextSeq - 64) :
    (s.log.append tag b).readers.get m = s.log.readers.get m := by
  by_cases hfull : s.log.records.length = 64
  · have hcursor := h.resolve_left (not_not_intro hfull)
    rw [hlaw.append_full hfull, PerMaster.get_mapWith, LogReader.carry_elsewhere _ hcursor]
  · rw [hlaw.append_not_full hfull]

/-! ## The threshold comparison (R154) -/

theorem CompletionLog.reached_iff (l : CompletionLog) (r : LogReader) :
    l.reached r = true ↔ r.threshold ≠ 0 ∧ r.threshold.toNat ≤ (l.nextSeq - r.cursor).toNat := by
  rw [CompletionLog.reached, Bool.and_eq_true, decide_eq_true_iff, decide_eq_true_iff, CompletionLog.unread]

/-- The comparison is made in the log that the append leaves, with the threshold that the master had before. -/
theorem State.append_notice_eq (s : State) (b : RecordBody) (m : Master) :
    (s.append b).notice m =
      if (s.log.readers.get m).threshold ≠ 0 ∧ (s.log.readers.get m).threshold.toNat ≤
          ((s.append b).log.nextSeq - ((s.append b).log.readers.get m).cursor).toNat
      then (s.notice m).raise .log else s.notice m := by
  have hreached := (s.append b).log.reached_iff ((s.append b).log.readers.get m)
  rw [State.append_log, CompletionLog.append_threshold, ← State.append_log] at hreached
  simp only [← hreached]
  exact PerMaster.get_mapWith ..

/-- Settles O46: the law gives the numbers of the two oldest records, which say which readers a full log carries forward; the
rest is the append itself and its threshold comparison. -/
theorem appendRecord : Obligations.AppendRecord := by
  refine fun s b hlaw => ⟨rfl, s.log.append_nextSeq s.timeTag b, fun hroom => ?notFull, fun hfull => ?full,
    fun m => ⟨fun hfull => ?carried, ?kept, fun hset hreached => ?raised, fun hbelow => ?silent⟩⟩
  case notFull => rw [State.append_log, hlaw.append_not_full hroom]
  case full => rw [State.append_log, hlaw.append_full hfull]
  case carried => exact hlaw.append_reader_carried hfull s.timeTag b
  case kept => exact hlaw.append_reader_kept s.timeTag b
  case raised => rw [State.append_notice_eq, if_pos ⟨hset, hreached⟩]
  case silent =>
    rw [State.append_notice_eq, if_neg]
    rintro ⟨hset, hreached⟩
    exact hbelow.elim hset (Nat.not_lt.mpr hreached)

end Sys2Proof.Machine
end

section
/-!
A property carried through a command: past the checks of a request, to the state that its own rule leaves (R171, R174). Nothing
here is about one law: the property is any that the operations named in the hypotheses keep.
-/

namespace Sys2Proof.Machine

/-- The state that a result answers, if it answers one, has the property. -/
def NextSatisfies (P : State → Prop) (r : Result) : Prop := ∀ t, r = .next t → P t

section
variable {P : State → Prop} {s : State}

theorem nextSatisfies_next : NextSatisfies P (.next s) ↔ P s :=
  ⟨fun h => h s rfl, fun h _ e => Host.Outcome.next.inj e ▸ h⟩

theorem nextSatisfies_ite {c : Prop} [Decidable c] {a b : State} (ha : P a) (hb : P b) :
    NextSatisfies P (if c then .next a else .next b) := by
  split
  · exact nextSatisfies_next.mpr ha
  · exact nextSatisfies_next.mpr hb

/-- A check of a request refuses it, which changes nothing, or lets it pass to what follows. -/
theorem refused_or_keeps {c : Prop} [Decidable c] {status : Status} {rest : State × Answer} (hs : P s) (hrest : P rest.1) :
    P (if c then (s, Answer.refuse status) else rest).1 := by
  split
  · exact hs
  · exact hrest

theorem ownChannel_keeps {m : Master} {c : Ch} {take : State × Answer} (hs : P s) (htake : P take.1) :
    P (ownChannel m c s take).1 := by
  unfold ownChannel
  split
  · exact htake
  · exact hs

theorem ownSet_keeps {m : Master} {set : ChannelSet} {take : State × Answer} (hs : P s) (htake : P take.1) :
    P (ownSet m set s take).1 := by
  unfold ownSet
  split
  · exact htake
  · exact hs

theorem ownClaim_keeps {m : Master} {number : Byte} {take : Pos → ClaimEntry → State × Answer} (hs : P s)
    (htake : ∀ p e, P (take p e).1) : P (ownClaim m number s take).1 := by
  unfold ownClaim
  split
  · exact hs
  · refine refused_or_keeps hs ?_
    split
    · exact htake _ _
    · exact hs

/-- The frame end and the answer are changes of the port; all else that a request does is its own rule's. -/
theorem request_keeps {i : Instr} {m : Master} {take : State → State × Answer}
    (hport : ∀ s m p, P s → P (State.setPort s m p)) (htake : ∀ s, P s → P (take s).1) (hs : P s) :
    NextSatisfies P (request i m take s) := by
  rcases request_cases i m take s with h | ⟨status, h⟩ | ⟨-, h⟩ <;> rw [h, nextSatisfies_next]
  · exact hs
  · exact hport _ _ _ (hport _ _ _ hs)
  · exact hport _ _ _ (htake _ (hport _ _ _ hs))

end

end Sys2Proof.Machine
end

section
/-!
The law of the notice line (R164) and of the mask (R190). The line is computed anew from the potent set at every change of the
pending set or the mask, so each change leaves the line right whatever it was before; a step changes notices by those
changes only.
-/

namespace Sys2Proof.Machine

/-! ## The notices of a set (R161, R189) -/

/-- The position of a notice in a notice set (R189). -/
def Notice.position : Notice → Fin 9
  | .granted => 0
  | .refused => 1
  | .revoked => 2
  | .offered => 3
  | .handoff => 4
  | .list => 5
  | .fault => 6
  | .log => 7
  | .port => 8

theorem Notice.bit_eq_twoPow (k : Notice) : k.bit = BitVec.twoPow 9 k.position := by cases k <;> rfl

theorem Notice.exists_position (i : Fin 9) : ∃ k : Notice, k.position = i := by
  fin_cases i
  exacts [⟨.granted, rfl⟩, ⟨.refused, rfl⟩, ⟨.revoked, rfl⟩, ⟨.offered, rfl⟩, ⟨.handoff, rfl⟩, ⟨.list, rfl⟩, ⟨.fault, rfl⟩,
    ⟨.log, rfl⟩, ⟨.port, rfl⟩]

theorem Notice.isIn_iff {k : Notice} {set : NoticeSet} : k.isIn set ↔ set.getLsbD k.position = true := by
  have hbit : BitVec.twoPow 9 k.position ≠ 0 := by cases k <;> decide
  unfold Notice.isIn
  rw [k.bit_eq_twoPow, BitVec.and_twoPow]
  split
  · exact iff_of_true hbit ‹_›
  · exact iff_of_false (not_not_intro rfl) ‹_›

/-- Every bit of a notice set belongs to a notice, so a set that is not empty contains one. -/
theorem exists_isIn_iff {set : NoticeSet} : (∃ k : Notice, k.isIn set) ↔ set ≠ 0 := by
  constructor
  · rintro ⟨k, hk⟩ rfl
    exact hk BitVec.zero_and
  · intro hset
    by_contra hnone
    refine hset (BitVec.eq_of_getLsbD_eq fun i hi => ?_)
    obtain ⟨k, hk⟩ := Notice.exists_position ⟨i, hi⟩
    have hout : ¬ k.isIn set := fun h => hnone ⟨k, h⟩
    rw [Notice.isIn_iff, hk] at hout
    simpa using hout

theorem Notice.isIn_bit_iff {j k : Notice} : k.isIn j.bit ↔ k = j := by cases j <;> cases k <;> decide

theorem Notice.isIn_and {k : Notice} {a b : NoticeSet} : k.isIn (a &&& b) ↔ k.isIn a ∧ k.isIn b := by
  simp only [Notice.isIn_iff, BitVec.getLsbD_and, Bool.and_eq_true]

theorem Notice.isIn_or {k : Notice} {a b : NoticeSet} : k.isIn (a ||| b) ↔ k.isIn a ∨ k.isIn b := by
  simp only [Notice.isIn_iff, BitVec.getLsbD_or, Bool.or_eq_true]

theorem Notice.isIn_not {k : Notice} {a : NoticeSet} : k.isIn (~~~a) ↔ ¬ k.isIn a := by
  simp only [Notice.isIn_iff, BitVec.getLsbD_not, k.position.isLt, decide_true, Bool.true_and, Bool.not_eq_true',
    Bool.not_eq_true]

/-! ## The law at one master -/

/-- The line says whether a potent notice is pending, and the mask does not hold REVOKED: R164 and R190 at one master. -/
def NoticeState.Lawful (n : NoticeState) : Prop :=
  (n.line = true ↔ ∃ k : Notice, k.isIn n.pending ∧ (k = .revoked ∨ ¬ k.isIn n.mask)) ∧ ¬ Notice.revoked.isIn n.mask

/-- The potent set is the one that R164 names. -/
theorem NoticeState.isIn_potent {k : Notice} {n : NoticeState} :
    k.isIn n.potent ↔ k.isIn n.pending ∧ (k = .revoked ∨ ¬ k.isIn n.mask) := by
  rw [NoticeState.potent, Notice.isIn_and, Notice.isIn_or, Notice.isIn_not, Notice.isIn_bit_iff, or_comm]

theorem NoticeState.exists_potent_iff {n : NoticeState} :
    (∃ k : Notice, k.isIn n.pending ∧ (k = .revoked ∨ ¬ k.isIn n.mask)) ↔ n.potent ≠ 0 := by
  simp only [← NoticeState.isIn_potent]
  exact exists_isIn_iff

/-- A line that is computed anew is right, whatever it was: only the mask has to be lawful. -/
theorem NoticeState.refresh_lawful {n : NoticeState} (hmask : ¬ Notice.revoked.isIn n.mask) : n.refresh.Lawful :=
  ⟨decide_eq_true_iff.trans (NoticeState.exists_potent_iff (n := n)).symm, hmask⟩

/-- With nothing pending, the line is right when it is not asserted. -/
theorem NoticeState.Lawful.of_none_pending {n : NoticeState} (hpending : n.pending = 0) (hline : n.line = false)
    (hmask : ¬ Notice.revoked.isIn n.mask) : n.Lawful := by
  refine ⟨iff_of_false (by simp [hline]) ?_, hmask⟩
  rw [NoticeState.exists_potent_iff, NoticeState.potent, hpending]
  exact not_not_intro BitVec.zero_and

section
variable {n : NoticeState}

theorem NoticeState.Lawful.raise (h : n.Lawful) (k : Notice) : (n.raise k).Lawful := NoticeState.refresh_lawful h.2

theorem NoticeState.Lawful.raiseHandoff (h : n.Lawful) (r : HandoffReason) : (n.raiseHandoff r).Lawful :=
  NoticeState.refresh_lawful h.2

theorem NoticeState.Lawful.acknowledge (h : n.Lawful) (named : NoticeSet) : (n.acknowledge named).Lawful :=
  NoticeState.refresh_lawful h.2

theorem NoticeState.Lawful.clearRevoked (h : n.Lawful) : n.clearRevoked.Lawful := NoticeState.refresh_lawful h.2

/-- A new mask is stored with its REVOKED position clear (R190). -/
theorem NoticeState.setMask_lawful (mask : NoticeSet) : (n.setMask mask).Lawful := by
  refine NoticeState.refresh_lawful fun hin => ?_
  rw [Notice.isIn_and, Notice.isIn_not] at hin
  exact hin.2 (Notice.isIn_bit_iff.mpr rfl)

theorem NoticeState.Lawful.softReset (h : n.Lawful) : n.softReset.Lawful := .of_none_pending rfl rfl h.2

theorem NoticeState.reset_lawful : NoticeState.reset.Lawful := .of_none_pending rfl rfl (by decide)

end

/-! ## The law at every master -/

/-- The notices of every master are lawful. -/
def NoticesLawful (s : State) : Prop := ∀ m, (s.notice m).Lawful

theorem noticesLawful_iff {s : State} : NoticesLawful s ↔ LineLaw s ∧ MaskLaw s := forall_and

section
variable {s : State}

theorem NoticesLawful.of_notices_eq (h : NoticesLawful s) {t : State} (e : t.notices = s.notices) : NoticesLawful t := by
  intro m
  rw [State.notice, e]
  exact h m

theorem NoticesLawful.setPort (h : NoticesLawful s) (m : Master) (p : Port) : NoticesLawful (s.setPort m p) := h

theorem NoticesLawful.setClaims (h : NoticesLawful s) (t : ClaimTable) : NoticesLawful (s.setClaims t) := h

theorem NoticesLawful.onNotices (h : NoticesLawful s) (m : Master) {f : NoticeState → NoticeState}
    (hf : ∀ n : NoticeState, n.Lawful → (f n).Lawful) : NoticesLawful (s.onNotices m f) :=
  PerMaster.forall_modify h (hf _)

theorem NoticesLawful.raise (h : NoticesLawful s) (m : Master) (k : Notice) : NoticesLawful (s.raise m k) :=
  h.onNotices m fun _ hn => hn.raise k

theorem NoticesLawful.append (h : NoticesLawful s) (b : RecordBody) : NoticesLawful (s.append b) := by
  intro m
  rcases s.notice_append b m with e | e <;> rw [e]
  · exact h m
  · exact (h m).raise .log

theorem NoticesLawful.orderAll (h : NoticesLawful s) (set : ChannelSet) (f : ChannelUnit → ChannelUnit) :
    NoticesLawful (s.orderAll set f) := h.of_notices_eq (s.orderAll_notices set f)

theorem NoticesLawful.channelEvent (h : NoticesLawful s) (c : Ch) (f : ChannelUnit → Progress) :
    NoticesLawful (s.channelEvent c f) :=
  State.emits_induct (fun _ b ht => ht.append b) (fun _ m k ht => ht.raise m k) c _ _ h

theorem NoticesLawful.channelEvents (h : NoticesLawful s) (cs : List Ch) (f : ChannelUnit → Progress) :
    NoticesLawful (s.channelEvents cs f) :=
  State.channelEvents_induct cs (fun _ c _ ht => ht.channelEvent c f) s h

theorem NoticesLawful.listEvents (h : NoticesLawful s) (m : Master) (set : ChannelSet) (f : ChannelUnit → Progress) :
    NoticesLawful (s.listEvents m set f) := (h.channelEvents (channelsOf set) f).setClaims _

/-! ## The claim table's events -/

theorem NoticesLawful.grant (h : NoticesLawful s) (p : Pos) (e : ClaimEntry) : NoticesLawful (s.grant p e) :=
  ((h.setClaims _).raise e.master .granted).append _

theorem NoticesLawful.refuseClaim (h : NoticesLawful s) (p : Pos) (e : ClaimEntry) (reason : RefuseReason) :
    NoticesLawful (s.refuseClaim p e reason) := ((h.setClaims _).raise e.master .refused).append _

theorem NoticesLawful.grantEvaluation (h : NoticesLawful s) : NoticesLawful s.grantEvaluation :=
  State.grantEvaluation_induct (fun _ p e ht _ _ _ => ht.refuseClaim p e .digest) (fun _ p e ht _ _ _ => ht.grant p e) s h

theorem NoticesLawful.endOffer (h : NoticesLawful s) (p : Pos) (e : ClaimEntry) (lease : Word16) (tag : Word32)
    (reason : HandoffReason) : NoticesLawful (endOffer p e lease tag reason s) :=
  (h.setClaims _).onNotices e.master fun _ hn => hn.raiseHandoff reason

theorem NoticesLawful.handOver (h : NoticesLawful s) (m : Master) (p : Pos) (e : ClaimEntry) (lease : Word16)
    (tag : Word32) : NoticesLawful (handOver m p e lease tag s) :=
  ((h.setClaims _).onNotices e.master fun _ hn => hn.raiseHandoff .accepted).append _

theorem NoticesLawful.revokeClaim (h : NoticesLawful s) (p : Pos) (e : ClaimEntry) : NoticesLawful (revokeClaim p e s) :=
  (((((h.orderAll _ _).setClaims _).setClaims _).raise e.master .revoked).append _).grantEvaluation

/-! ## The requests of the claim table -/

theorem NoticesLawful.takeClaim (h : NoticesLawful s) {m : Master} {set : ChannelSet} {lease : Word16}
    {wait : Option WaitTimer} {expected : Option Word16} : NoticesLawful (takeClaim m set lease wait expected s).1 := by
  refine refused_or_keeps h (refused_or_keeps h ?_)
  split
  · exact h
  · exact (h.setClaims _).grantEvaluation

theorem NoticesLawful.takeRenew (h : NoticesLawful s) {m : Master} {number : Byte} :
    NoticesLawful (takeRenew m number s).1 := ownClaim_keeps h fun _ _ => h.setClaims _

theorem NoticesLawful.takeRelease (h : NoticesLawful s) {m : Master} {number : Byte} {mode : ReleaseMode} :
    NoticesLawful (takeRelease m number mode s).1 :=
  ownClaim_keeps h fun _ _ => (((h.orderAll _ _).setClaims _).append _).grantEvaluation

theorem NoticesLawful.takeWithdraw (h : NoticesLawful s) {m : Master} {number : Byte} :
    NoticesLawful (takeWithdraw m number s).1 := by
  unfold Machine.takeWithdraw
  rcases s.claims.find number with _ | ⟨p, e⟩
  · exact h
  · dsimp only
    cases e.state with
    | pending wait expected =>
      dsimp only
      split
      · exact (h.setClaims _).grantEvaluation
      · exact h
    | held lease tag => exact refused_or_keeps h h
    | offered lease tag target remaining =>
      dsimp only
      split
      · exact h.setClaims _
      · split
        · exact h.endOffer p e lease tag .declined
        · exact h

theorem NoticesLawful.takeOffer (h : NoticesLawful s) {m : Master} {number : Byte} {target : Master} {time : Word16} :
    NoticesLawful (takeOffer m number target time s).1 := by
  unfold Machine.takeOffer
  rcases s.claims.find number with _ | ⟨p, e⟩
  · exact h
  · refine refused_or_keeps h ?_
    cases e.state with
    | held lease tag => exact (h.setClaims _).raise target .offered
    | pending wait expected => exact h
    | offered lease tag target remaining => exact h

theorem NoticesLawful.takeAccept (h : NoticesLawful s) {m : Master} {number : Byte} {lease : Word16} :
    NoticesLawful (takeAccept m number lease s).1 := by
  unfold Machine.takeAccept
  rcases s.claims.find number with _ | ⟨p, e⟩
  · exact h
  · dsimp only
    cases e.state with
    | offered period tag target remaining =>
      exact refused_or_keeps h (refused_or_keeps h (h.handOver m p e lease tag))
    | pending wait expected => exact h
    | held period tag => exact h

theorem NoticesLawful.takeAckRevoke (h : NoticesLawful s) {m : Master} : NoticesLawful (takeAckRevoke m s).1 :=
  (h.setClaims _).onNotices m fun _ hn => hn.clearRevoked

theorem NoticesLawful.takeReadClaim (h : NoticesLawful s) {selector value : Byte} :
    NoticesLawful (takeReadClaim selector value s).1 := by
  unfold Machine.takeReadClaim
  split <;> exact h

/-! ## The requests of the channels and their lists -/

theorem NoticesLawful.takeConfigChange (h : NoticesLawful s) {m : Master} {c : Ch} {f : ChannelUnit → ChannelUnit} :
    NoticesLawful (takeConfigChange m c f s).1 := (h.channelEvent c (configChange f)).setClaims _

theorem NoticesLawful.takeSetRange (h : NoticesLawful s) {m : Master} {c : Ch} {r : RangePart} :
    NoticesLawful (takeSetRange m c r s).1 :=
  ownChannel_keeps h (refused_or_keeps h (refused_or_keeps h h.takeConfigChange))

theorem NoticesLawful.takeSetPolicy (h : NoticesLawful s) {m : Master} {c : Ch} {p : PolicyPart} :
    NoticesLawful (takeSetPolicy m c p s).1 := ownChannel_keeps h (refused_or_keeps h h.takeConfigChange)

theorem NoticesLawful.takeWrite (h : NoticesLawful s) {m : Master} {c : Ch} {code rate : Word16} :
    NoticesLawful (takeWrite m c code rate s).1 :=
  ownChannel_keeps h (refused_or_keeps h (refused_or_keeps h (refused_or_keeps h (h.of_notices_eq rfl))))

theorem NoticesLawful.takeClearFault (h : NoticesLawful s) {m : Master} {c : Ch} :
    NoticesLawful (takeClearFault m c s).1 := ownChannel_keeps h (h.of_notices_eq rfl)

theorem NoticesLawful.takeLoadStep (h : NoticesLawful s) {m : Master} {c : Ch} {slot : Fin 16} {st : StepRecord} :
    NoticesLawful (takeLoadStep m c slot st s).1 :=
  ownChannel_keeps h (refused_or_keeps h (refused_or_keeps h (h.of_notices_eq rfl)))

theorem NoticesLawful.takeSetList (h : NoticesLawful s) {m : Master} {c : Ch} {d : Descriptor} :
    NoticesLawful (takeSetList m c d s).1 :=
  ownChannel_keeps h (refused_or_keeps h (refused_or_keeps h (h.of_notices_eq rfl)))

theorem NoticesLawful.takeStart (h : NoticesLawful s) {m : Master} {set : ChannelSet} {source : Option Line} :
    NoticesLawful (takeStart m set source s).1 :=
  ownSet_keeps h (refused_or_keeps h (refused_or_keeps h (h.listEvents m set _)))

theorem NoticesLawful.takeStop (h : NoticesLawful s) {m : Master} {set : ChannelSet} {mode : Byte} :
    NoticesLawful (takeStop m set mode s).1 := ownSet_keeps h (refused_or_keeps h (h.listEvents m set _))

theorem NoticesLawful.takePause (h : NoticesLawful s) {m : Master} {set : ChannelSet} :
    NoticesLawful (takePause m set s).1 := ownSet_keeps h (refused_or_keeps h (h.listEvents m set _))

theorem NoticesLawful.takeResume (h : NoticesLawful s) {m : Master} {set : ChannelSet} {mode : Byte} :
    NoticesLawful (takeResume m set mode s).1 := ownSet_keeps h (refused_or_keeps h (h.listEvents m set _))

theorem NoticesLawful.takeProceed (h : NoticesLawful s) {m : Master} {set : ChannelSet} :
    NoticesLawful (takeProceed m set s).1 := ownSet_keeps h (h.listEvents m set _)

/-! ## The notice unit, the ports and the device -/

theorem NoticesLawful.takeAckNotices (h : NoticesLawful s) {m : Master} {named : NoticeSet} :
    NoticesLawful (takeAckNotices m named s).1 := h.onNotices m fun _ hn => hn.acknowledge named

theorem NoticesLawful.takeSetNoticeMask (h : NoticesLawful s) {m : Master} {mask : NoticeSet} :
    NoticesLawful (takeSetNoticeMask m mask s).1 := h.onNotices m fun _ _ => NoticeState.setMask_lawful mask

theorem NoticesLawful.takeFrameError (h : NoticesLawful s) {m : Master} : NoticesLawful (takeFrameError m s) := by
  unfold Machine.takeFrameError
  split
  · exact h
  · exact (h.setPort m _).raise m .port

theorem NoticesLawful.takeSetTriggers (h : NoticesLawful s) {m : Master} {edge0 edge1 : EdgeSelection} :
    NoticesLawful (takeSetTriggers m edge0 edge1 s).1 := by
  unfold Machine.takeSetTriggers
  split
  · exact h.of_notices_eq rfl
  · exact h

theorem NoticesLawful.softReset (h : NoticesLawful s) (m : Master) : NoticesLawful (s.softReset m) := by
  intro d
  have e : (s.softReset m).notice d = (s.notice d).softReset := PerMaster.get_mapWith ..
  rw [e]
  exact (h d).softReset

theorem NoticesLawful.takeResetDevice (h : NoticesLawful s) {m : Master} : NoticesLawful (takeResetDevice m s).1 := by
  unfold Machine.takeResetDevice
  split
  · exact h.softReset m
  · exact h

theorem fullResetState_noticesLawful {pending : List Instr} {inReset : Bool} {level0 level1 : Level} :
    NoticesLawful (fullResetState pending inReset level0 level1) := by
  intro m
  have e : (fullResetState pending inReset level0 level1).notice m = .reset := PerMaster.get_all ..
  rw [e]
  exact NoticeState.reset_lawful

theorem NoticesLawful.transition (h : NoticesLawful s) {l : Line} {level : Level} :
    NoticesLawful (s.transition l level) := by
  have hline : NoticesLawful (s.setLine l { s.line l with level := level }) := by cases l <;> exact h
  unfold State.transition
  split
  · exact hline.channelEvents allChannels _
  · exact hline

theorem NoticesLawful.channelTimer (h : NoticesLawful s) {c : Ch} {f : ChannelUnit → Progress} :
    NoticesLawful (s.channelTimer c f) := by
  unfold State.channelTimer
  split
  · exact h
  · exact h.channelEvent c f

/-! ## Every command -/

theorem NoticesLawful.request (h : NoticesLawful s) {i : Instr} {m : Master} {take : State → State × Answer}
    (htake : ∀ s, NoticesLawful s → NoticesLawful (take s).1) : NextSatisfies NoticesLawful (request i m take s) :=
  request_keeps (fun _ m p ht => ht.setPort m p) htake h

theorem NoticesLawful.waitExpiry (h : NoticesLawful s) {p : Pos} : NextSatisfies NoticesLawful (execWaitExpiry p s) := by
  unfold execWaitExpiry
  split
  · exact nextSatisfies_next.mpr h
  · cases s.entry p with
    | none => exact nextSatisfies_next.mpr h
    | some e => exact nextSatisfies_ite (h.refuseClaim p e .timeout).grantEvaluation h

theorem NoticesLawful.leaseExpiry (h : NoticesLawful s) {p : Pos} : NextSatisfies NoticesLawful (execLeaseExpiry p s) := by
  unfold execLeaseExpiry
  split
  · exact nextSatisfies_next.mpr h
  · cases s.entry p with
    | none => exact nextSatisfies_next.mpr h
    | some e => exact nextSatisfies_ite (h.revokeClaim p e) h

theorem NoticesLawful.offerLapse (h : NoticesLawful s) {p : Pos} : NextSatisfies NoticesLawful (execOfferLapse p s) := by
  unfold execOfferLapse
  split
  · exact nextSatisfies_next.mpr h
  · cases s.entry p with
    | none => exact nextSatisfies_next.mpr h
    | some e =>
      dsimp only
      cases e.state with
      | offered lease tag target remaining => exact nextSatisfies_ite (h.endOffer p e lease tag .lapsed) h
      | pending wait expected => exact nextSatisfies_next.mpr h
      | held lease tag => exact nextSatisfies_next.mpr h

/-- Every command keeps the law: a request by what its own rule takes, a reading by changing no notice, the other events by
what they do outside a held reset. -/
theorem NoticesLawful.exec (h : NoticesLawful s) (i : Instr) : NextSatisfies NoticesLawful (exec i s) := by
  cases i
  case nop | readChannel | readConfig | readDigest | readStep | readNotices | readPortError | readTime =>
    exact h.request fun _ ht => ht
  case readLog | setLogThreshold => exact h.request fun _ ht => ht.of_notices_eq rfl
  case readClaim => exact h.request fun _ ht => ht.takeReadClaim
  case claim => exact h.request fun _ ht => ht.takeClaim
  case renew => exact h.request fun _ ht => ht.takeRenew
  case release => exact h.request fun _ ht => ht.takeRelease
  case withdraw => exact h.request fun _ ht => ht.takeWithdraw
  case offer => exact h.request fun _ ht => ht.takeOffer
  case accept => exact h.request fun _ ht => ht.takeAccept
  case ackRevoke => exact h.request fun _ ht => ht.takeAckRevoke
  case setRange => exact h.request fun _ ht => ht.takeSetRange
  case setPolicy => exact h.request fun _ ht => ht.takeSetPolicy
  case write => exact h.request fun _ ht => ht.takeWrite
  case clearFault => exact h.request fun _ ht => ht.takeClearFault
  case loadStep => exact h.request fun _ ht => ht.takeLoadStep
  case setList => exact h.request fun _ ht => ht.takeSetList
  case start => exact h.request fun _ ht => ht.takeStart
  case stop => exact h.request fun _ ht => ht.takeStop
  case pause => exact h.request fun _ ht => ht.takePause
  case resume => exact h.request fun _ ht => ht.takeResume
  case proceed => exact h.request fun _ ht => ht.takeProceed
  case ackNotices => exact h.request fun _ ht => ht.takeAckNotices
  case setNoticeMask => exact h.request fun _ ht => ht.takeSetNoticeMask
  case clearPortError => exact h.request fun _ ht => ht.setPort _ _
  case setTriggers => exact h.request fun _ ht => ht.takeSetTriggers
  case resetDevice => exact h.request fun _ ht => ht.takeResetDevice
  case frameBegin m => exact nextSatisfies_ite h (h.setPort m _)
  case portClockEdge m _ _ => exact nextSatisfies_ite (h.setPort m _) h
  case frameError m => exact nextSatisfies_ite (h.setPort m _).takeFrameError h
  case unknownRequest m _ => exact nextSatisfies_ite ((h.setPort m _).setPort m _) h
  case waitExpiry => exact h.waitExpiry
  case leaseExpiry => exact h.leaseExpiry
  case offerLapse => exact h.offerLapse
  case moveAdvance | settleExpiry | dwellExpiry | gapExpiry => exact nextSatisfies_next.mpr h.channelTimer
  case triggerTransition => exact nextSatisfies_ite h h.transition
  case timeTagAdvance => exact nextSatisfies_ite h (h.of_notices_eq rfl)
  case fullReset => exact nextSatisfies_next.mpr fullResetState_noticesLawful
  case fullResetEnd => exact nextSatisfies_ite fullResetState_noticesLawful h

theorem NoticesLawful.step (h : NoticesLawful s) : NextSatisfies NoticesLawful (step s) := by
  unfold Machine.step
  cases s.pending with
  | nil => exact nextSatisfies_next.mpr h
  | cons c rest => exact NoticesLawful.exec (s := { s with pending := rest }) h c

end

/-- Settles O50: the two laws are one law of each master's notices, which every command keeps. -/
theorem lineLawKept : Obligations.LineLawKept := by
  intro s t hline hmask hstep
  have h : NoticesLawful s := noticesLawful_iff.mpr ⟨hline, hmask⟩
  exact noticesLawful_iff.mp (h.step t hstep)

end Sys2Proof.Machine
end

section
/-!
A frame that ends with a LENGTH or CRC error (R171, R173, R175, R176): which error it has, what the port takes of it, and that
this is the whole of the event.
-/

namespace Sys2Proof.Machine

/-- Two changes of one port leave the later one. -/
@[simp] theorem State.setPort_setPort (s : State) (m : Master) (p q : Port) :
    (s.setPort m p).setPort m q = s.setPort m q := by
  cases m <;> rfl

/-- The first byte of a frame is 0x00 where no complete byte arrived (R173). -/
theorem byteAt_zero (bytes : List Byte) : byteAt bytes 0 = bytes.headD 0x00 := by
  cases bytes <;> rfl

/-- LENGTH comes before CRC: a frame with both errors has a LENGTH error (R171). -/
theorem Port.frameError_of_bad {p : Port} (hbad : p.bitCount ≠ 192 ∨ crc8 (p.bytes.take 23) ≠ byteAt p.bytes 23) :
    p.frameError = some (if p.bitCount ≠ 192 then .length else .crc) := by
  unfold Port.frameError
  by_cases hcount : p.bitCount ≠ 192
  · rw [if_pos hcount]
    exact if_pos hcount
  · have hcrc : crc8 (p.bytes.take 23) ≠ byteAt p.bytes 23 := hbad.resolve_left hcount
    rw [if_neg hcount]
    exact (if_neg hcount).trans (if_pos hcrc)

/-- A frame in progress that has an error ends as a frame error (R171). -/
theorem State.frameEnd_of_frameError {s : State} {m : Master} {kind : FrameErrorKind} (hreset : s.inReset = false)
    (hprogress : (s.port m).inProgress = true) (hkind : (s.port m).frameError = some kind) :
    s.frameEnd m = some (.frameError m) := by
  simp [State.frameEnd, hreset, hprogress, hkind]

/-- The capture after a frame error: an empty one takes the error, a filled one is marked LOST (R176). -/
def Port.captureAfter (kind : FrameErrorKind) (tag : Word32) (p : Port) : Option ErrorCapture :=
  match p.capture with
  | none => some { kind := kind, firstByte := p.bytes.head?, tag := tag, lost := false }
  | some held => some { held with lost := true }

theorem Port.captureError_eq (kind : FrameErrorKind) (tag : Word32) (p : Port) :
    p.captureError kind tag = { p with capture := p.captureAfter kind tag } := by
  unfold Port.captureError Port.captureAfter
  cases p.capture <;> rfl

/-- A frame error leaves the received bytes and the outgoing copy as they are (R175). -/
theorem Port.takeError_eq (kind : FrameErrorKind) (tag : Word32) (p : Port) :
    (p.endFrame.captureError kind tag).answerError kind =
      { p with
        inProgress := false, capture := p.captureAfter kind tag
        response := sealFrame [p.bytes.headD 0x00, 0x0E, kind.code] } := by
  rw [Port.captureError_eq, ← byteAt_zero]
  rfl

/-- The frame error at hand changes its port, and sets the PORT notice of its master (R175). -/
theorem exec_frameError {s : State} {m : Master} {kind : FrameErrorKind} (hreset : s.inReset = false)
    (hprogress : (s.port m).inProgress = true) (hkind : (s.port m).frameError = some kind) :
    exec (.frameError m) s =
      .next ((s.setPort m (((s.port m).endFrame.captureError kind s.timeTag).answerError kind)).raise m .port) := by
  have htaken : exec (.frameError m) s = .next (takeFrameError m (s.endFrame m)) :=
    atFrameEnd_taken (State.frameEnd_of_frameError hreset hprogress hkind)
  rw [htaken]
  simp [takeFrameError, State.endFrame, hkind]

/-- The codes of the two error kinds (R189). -/
theorem FrameErrorKind.code_ite (c : Prop) [Decidable c] :
    (if c then FrameErrorKind.length else .crc).code = if c then 0x01 else 0x02 := apply_ite ..

/-- Settles O8: the error is LENGTH or CRC by the bit count alone, and its event is a change of the port and a notice. -/
theorem frameErrorTaken : Obligations.FrameErrorTaken := by
  intro m s hreset hprogress hbad kind
  have hkind : (s.port m).frameError = some kind := Port.frameError_of_bad hbad
  have hcode : kind.code = if (s.port m).bitCount ≠ 192 then 0x01 else 0x02 := FrameErrorKind.code_ite _
  rw [exec_frameError hreset hprogress hkind, Port.takeError_eq, hcode]
  rfl

end Sys2Proof.Machine
end

section
/-!
What a command can do to each block of the state, said once: the changes of the claim table with what the checks before them have
found, and the rule that carries a property of the state through any command, from what the property makes of each kind of change.
-/

namespace Sys2Proof.Machine

/-! ## The changes of the claim table -/

/-- A change of an entry in force, in place: the claim keeps its channels and stays in force. -/
inductive InPlaceChange (s : State) : ClaimTable → Prop
  /-- A RENEW (R18). -/
  | renewed {p : Pos} {e : ClaimEntry} (he : s.entry p = some e) :
      InPlaceChange s (s.claims.setEntry p (some e.renew))
  /-- An OFFER (R43). -/
  | offered {p : Pos} {e : ClaimEntry} {lease : Word16} {tag : Word32} (target : Master) (time : Word16)
      (he : s.entry p = some e) (hstate : e.state = .held lease tag) (htarget : target ≠ e.master) :
      InPlaceChange s (s.claims.setEntry p (some { e with state := .offered e.leasePeriod tag target time }))
  /-- An offer that is cancelled, declined or lapsed (R45, R49, R50). -/
  | unoffered {p : Pos} {e : ClaimEntry} {old lease : Word16} {tag : Word32} {target : Master} {time : Word16}
      (he : s.entry p = some e) (hstate : e.state = .offered old tag target time) (hlease : lease = old ∨ lease = e.leasePeriod) :
      InPlaceChange s (s.claims.setEntry p (some { e with state := .held lease tag }))
  /-- An ACCEPT (R46, R47). -/
  | passed {p : Pos} {e : ClaimEntry} {old : Word16} {tag : Word32} {time : Word16} {m : Master} {lease : Word16}
      (he : s.entry p = some e) (hstate : e.state = .offered old tag m time) (hwaits : s.claims.waitsOn m e.set = false)
      (hlease : 10 ≤ lease.toNat) :
      InPlaceChange s (s.claims.setEntry p (some { e with master := m, leasePeriod := lease, state := .held lease tag }))

/-- A change of the pending order, which grant evaluation follows or makes. -/
inductive OrderChange (s : State) : ClaimTable → Prop
  /-- A CLAIM that passes its checks (R8, R9). -/
  | created {p : Pos} {m : Master} {set : ChannelSet} {lease : Word16} {wait : Option WaitTimer} {expected : Option Word16}
      (hfree : s.entry p = none) (hwaits : s.claims.hasPending m = false)
      (hoverlap : ∀ c : Ch, set.getLsbD c.val = true → s.holder c ≠ some m) (hset : set ≠ 0) (hlease : 10 ≤ lease.toNat)
      (hwait : ∀ w, wait = some w → w.limit ≠ 0 ∧ w.remaining = w.limit) :
      OrderChange s
        (s.claims.create p
          { number := s.claims.newNumber, master := m, set := set, leasePeriod := lease, state := .pending wait expected })
  /-- A PENDING claim that is withdrawn, refused or timed out (R14, R17, R26). -/
  | dropped {p : Pos} {e : ClaimEntry} (he : s.entry p = some e) (hpending : e.isPending = true) :
      OrderChange s (s.claims.remove p)

/-- Neither kind of change touches a revoke state. -/
theorem InPlaceChange.revoke_eq {s : State} {t : ClaimTable} (h : InPlaceChange s t) : t.revoke = s.claims.revoke := by
  cases h <;> rfl

theorem OrderChange.revoke_eq {s : State} {t : ClaimTable} (h : OrderChange s t) : t.revoke = s.claims.revoke := by
  cases h <;> rfl

/-- The table after a grant (R13). -/
def State.grantedTable (s : State) (p : Pos) (e : ClaimEntry) : ClaimTable :=
  (s.claims.setEntry p (some { e with state := .held e.leasePeriod s.timeTag })).dequeue p

/-! ## A port's law -/

/-- The port shifts out whole frames, and has received the complete bytes of the bits counted. -/
def Port.Lawful (p : Port) : Prop := WholeFrame p.response ∧ WholeFrame p.outgoing ∧ p.bytes.length = p.bitCount / 8

theorem portLaw_iff {s : State} : PortLaw s ↔ ∀ m, (s.port m).Lawful := Iff.rfl

theorem padTo_length (n : Nat) (bytes : List Byte) : (padTo n bytes).length = n := by
  simp [padTo]

/-- Every sealed frame is whole (R172). -/
theorem sealFrame_whole (bytes : List Byte) : WholeFrame (sealFrame bytes) := by
  have hlength := padTo_length 23 bytes
  refine ⟨by simp [sealFrame, hlength], ?_⟩
  have htake : (sealFrame bytes).take 23 = padTo 23 bytes := by
    rw [sealFrame, List.take_append_of_le_length hlength.ge, List.take_of_length_le hlength.le]
  rw [htake, byteAt, sealFrame, List.getD_eq_getElem?_getD, List.getElem?_append_right hlength.le, hlength]
  rfl

section
variable {p : Port}

theorem Port.Lawful.endFrame (h : p.Lawful) : p.endFrame.Lawful := h

theorem Port.Lawful.respond (h : p.Lawful) (code : Byte) (a : Answer) : (p.respond code a).Lawful :=
  ⟨sealFrame_whole _, h.2⟩

theorem Port.Lawful.answerError (h : p.Lawful) (kind : FrameErrorKind) : (p.answerError kind).Lawful :=
  ⟨sealFrame_whole _, h.2⟩

theorem Port.Lawful.captureError (h : p.Lawful) (kind : FrameErrorKind) (tag : Word32) :
    (p.captureError kind tag).Lawful := by
  rw [Port.captureError_eq]
  exact h

/-- The copy that a new frame shifts out is the response, and no bit of it has been received. -/
theorem Port.Lawful.beginFrame (h : p.Lawful) : p.beginFrame.Lawful := ⟨h.1, h.1, (Nat.zero_div 8).symm⟩

/-- Every eighth bit completes a byte (R170). -/
theorem Port.Lawful.sample (h : p.Lawful) (bit : Bool) : (p.sample bit).Lawful := by
  obtain ⟨hresponse, houtgoing, hbytes⟩ := h
  refine ⟨by unfold Port.sample; split <;> exact hresponse, by unfold Port.sample; split <;> exact houtgoing, ?_⟩
  unfold Port.sample
  split
  · simp only [List.length_append, List.length_singleton, hbytes]
    omega
  · simp only [hbytes]
    omega

theorem Port.Lawful.clockEdge (h : p.Lawful) (edge : ClockEdge) (bit : Bool) : (p.clockEdge edge bit).Lawful := by
  cases edge
  · exact h.sample bit
  · exact h

theorem Port.Lawful.softReset (h : p.Lawful) : p.softReset.Lawful := ⟨sealFrame_whole _, h.2⟩

theorem Port.reset_lawful : Port.reset.Lawful := ⟨sealFrame_whole _, sealFrame_whole _, rfl⟩

end

/-! ## The kinds of change that a command makes -/

/-- A change of a master's notices that leaves its REVOKED notice as it is. -/
def KeepsRevoked (f : NoticeState → NoticeState) : Prop :=
  ∀ n, Notice.revoked.isIn (f n).pending ↔ Notice.revoked.isIn n.pending

theorem keepsRevoked_raise {k : Notice} (hk : k ≠ .revoked) : KeepsRevoked (NoticeState.raise k) := by
  intro n
  show Notice.revoked.isIn (n.pending ||| k.bit) ↔ _
  rw [Notice.isIn_or, Notice.isIn_bit_iff]
  exact or_iff_left (Ne.symm hk)

theorem keepsRevoked_raiseHandoff (r : HandoffReason) : KeepsRevoked (NoticeState.raiseHandoff r) :=
  keepsRevoked_raise (k := .handoff) nofun

theorem keepsRevoked_acknowledge (named : NoticeSet) : KeepsRevoked (NoticeState.acknowledge named) := by
  intro n
  show Notice.revoked.isIn (n.pending &&& (~~~named ||| Notice.revoked.bit)) ↔ _
  rw [Notice.isIn_and, Notice.isIn_or]
  exact and_iff_left (.inr (Notice.isIn_bit_iff.mpr rfl))

theorem keepsRevoked_setMask (mask : NoticeSet) : KeepsRevoked (NoticeState.setMask mask) := fun _ => Iff.rfl

/-- A property that changes of the ports, the log and the notices keep. A port's change may rest on the port's law, a reader's on
what is unread, and a change of the notices on its leaving REVOKED alone. -/
structure Quiet (P : State → Prop) : Prop where
  port : ∀ {s : State} (m : Master) (q : Port), ((s.port m).Lawful → q.Lawful) → P s → P (s.setPort m q)
  append : ∀ {s : State} (b : RecordBody), P s → P (s.append b)
  notices : ∀ {s : State} (m : Master) (f : NoticeState → NoticeState), KeepsRevoked f → P s → P (s.onNotices m f)
  reader : ∀ {s : State} (m : Master) (r : LogReader), s.log.unread r ≤ s.log.unread (s.log.readers.get m) →
    r.threshold.toNat ≤ max (s.log.readers.get m).threshold.toNat 64 → P s → P (s.setReader m r)
  line : ∀ {s : State} (l : Line) (tl : TriggerLine), P s → P (s.setLine l tl)

/-- A quiet property that events at channel units and the renewals they bring keep too. -/
structure ChannelsKept (P : State → Prop) : Prop extends Quiet P where
  channel : ∀ {s : State} (c : Ch) (u : ChannelUnit), P s → P (s.setChannel c u)
  renewLeases : ∀ {s : State} (m : Master) (set : ChannelSet), P s → P (s.renewLeases m set)

/-- A property `P` that the claim table's requests and expiries keep, as far as they end no claim in force: `Q` is what is left of
it between a change of the pending order and the end of the grant evaluation that follows. -/
structure EvaluatedKept (P Q : State → Prop) : Prop where
  kept : Quiet P
  between : Quiet Q
  inPlace : ∀ {s : State} {t : ClaimTable}, InPlaceChange s t → P s → P (s.setClaims t)
  ordered : ∀ {s : State} {t : ClaimTable}, OrderChange s t → P s → Q (s.setClaims t)
  evaluated : ∀ {s : State}, Q s → P s.grantEvaluation
  ackRevoke : ∀ {s : State} (m : Master), P s → P ((s.setRevoke m .active).onNotices m NoticeState.clearRevoked)

/-- A property that every single change of a step keeps, but for the resets and the end of a millisecond. -/
structure StepKept (P : State → Prop) : Prop extends ChannelsKept P where
  inPlace : ∀ {s : State} {t : ClaimTable}, InPlaceChange s t → P s → P (s.setClaims t)
  ordered : ∀ {s : State} {t : ClaimTable}, OrderChange s t → P s → P (s.setClaims t)
  granted : ∀ {s : State} {p : Pos} {e : ClaimEntry}, s.entry p = some e → e.isPending = true → s.grantable p e = true →
    P s → P (s.setClaims (s.grantedTable p e))
  freed : ∀ {s : State} {p : Pos} {e : ClaimEntry}, s.entry p = some e → e.inForce = true → P s →
    P (s.setClaims (s.claims.remove p))
  ackRevoke : ∀ {s : State} (m : Master), P s → P ((s.setRevoke m .active).onNotices m NoticeState.clearRevoked)
  bar : ∀ {s : State} (m : Master), P s → P ((s.setRevoke m .barred).raise m .revoked)

/-- What a command reaches. -/
inductive CommandGroup where
  /-- Ports, notices, the log's readers, the trigger lines: no channel unit and no claim. -/
  | quiet
  /-- The claim table, but no claim in force is ended. -/
  | claims
  /-- A claim in force is ended. -/
  | freeing
  /-- Channel units. -/
  | channels
  /-- The whole part. -/
  | device

def commandGroup : Instr → CommandGroup
  | .claim _ _ _ _ _ _ | .renew _ _ | .withdraw _ _ | .offer _ _ _ _ | .accept _ _ _ | .ackRevoke _ | .waitExpiry _
  | .offerLapse _ => .claims
  | .release _ _ _ | .leaseExpiry _ => .freeing
  | .setRange _ _ _ _ _ _ | .setPolicy _ _ _ _ _ _ _ _ | .write _ _ _ _ | .clearFault _ _ | .loadStep _ _ _ _ _ _ _
  | .setList _ _ _ _ _ _ _ | .start _ _ _ | .stop _ _ _ | .pause _ _ | .resume _ _ _ | .proceed _ _ | .moveAdvance _
  | .settleExpiry _ _ | .dwellExpiry _ | .gapExpiry _ | .triggerTransition _ _ _ => .channels
  | .resetDevice _ | .fullReset _ | .fullResetEnd _ _ | .timeTagAdvance => .device
  | _ => .quiet

/-! ## Requests -/

/-- The checks before the taking of a request: each refuses it, which changes nothing, or lets it pass, and the rest may use
that it passed. -/
theorem passed_or_keeps {P : State → Prop} {s : State} {c : Prop} [Decidable c] {status : Status} {rest : State × Answer}
    (hs : P s) (hrest : ¬ c → P rest.1) : P (if c then (s, Answer.refuse status) else rest).1 := by
  split
  · exact hs
  · exact hrest ‹_›

/-- A request that its own rule takes knows its parameters to be well formed. -/
theorem Quiet.request {P : State → Prop} (h : Quiet P) {i : Instr} {m : Master} {take : State → State × Answer} {s : State}
    (hs : P s) (htake : ∀ t, i.parametersOk = true → P t → P (take t).1) : NextSatisfies P (request i m take s) := by
  have hend : P (s.endFrame m) := h.port m _ Port.Lawful.endFrame hs
  have hanswer : ∀ {t : State} (code : Byte) (a : Answer), P t → P (t.respond m code a) :=
    fun code a => h.port m _ fun hp => hp.respond code a
  rcases request_cases i m take s with e | ⟨status, e⟩ | ⟨⟨-, hok, -⟩, e⟩ <;> rw [e, nextSatisfies_next]
  · exact hs
  · exact hanswer _ _ hend
  · exact hanswer _ _ (htake _ hok hend)

section
variable {P Q : State → Prop} {s : State}

theorem Quiet.raise (h : Quiet P) (hs : P s) (m : Master) {k : Notice} (hk : k ≠ .revoked) : P (s.raise m k) :=
  h.notices m _ (keepsRevoked_raise hk) hs

theorem Quiet.raiseHandoff (h : Quiet P) (hs : P s) (m : Master) (r : HandoffReason) :
    P (s.onNotices m (NoticeState.raiseHandoff r)) := h.notices m _ (keepsRevoked_raiseHandoff r) hs

/-! ## The commands that reach neither a channel unit nor a claim -/

theorem Quiet.takeFrameError (h : Quiet P) (hs : P s) (m : Master) : P (takeFrameError m s) := by
  unfold Machine.takeFrameError
  split
  · exact hs
  · exact h.raise (h.port m _ (fun hp => (hp.captureError _ _).answerError _) hs) m nofun

/-- READ_LOG passes a record only where one is unread (R155). -/
theorem Quiet.takeReadLog (h : Quiet P) (hs : P s) (m : Master) (mode : Byte) : P (takeReadLog m mode s).1 := by
  refine h.reader m _ ?_ (le_max_left _ _) hs
  unfold LogReader.read CompletionLog.unread
  split
  case isFalse => exact le_rfl
  case isTrue hnext =>
    have hunread : s.log.unread (s.log.readers.get m) ≠ 0 := by
      intro hzero
      simp [CompletionLog.designated, hzero] at hnext
    unfold CompletionLog.unread at hunread
    bv_omega

theorem Quiet.takeSetLogThreshold (h : Quiet P) (hs : P s) (m : Master) {threshold : Byte}
    (hok : threshold.toNat ≤ 64) : P (takeSetLogThreshold m threshold s).1 :=
  h.reader m _ le_rfl (le_max_of_le_right hok) hs

theorem Quiet.takeSetTriggers (h : Quiet P) (hs : P s) (m : Master) (edge0 edge1 : EdgeSelection) :
    P (takeSetTriggers m edge0 edge1 s).1 := by
  unfold Machine.takeSetTriggers
  split
  · exact h.line .trg1 { s.trg1 with selection := edge1 } (h.line .trg0 { s.trg0 with selection := edge0 } hs)
  · exact hs

theorem takeReadClaim_state (selector value : Byte) (s : State) : (takeReadClaim selector value s).1 = s := by
  unfold takeReadClaim
  split <;> rfl

theorem Quiet.exec (h : Quiet P) (hs : P s) {i : Instr} (hi : commandGroup i = .quiet) : NextSatisfies P (exec i s) := by
  cases i
  case nop | readChannel | readConfig | readDigest | readStep | readNotices | readPortError | readTime =>
    exact h.request hs fun _ _ ht => ht
  case readClaim => exact h.request hs fun t _ ht => (takeReadClaim_state _ _ t).symm ▸ ht
  case readLog => exact h.request hs fun _ _ ht => h.takeReadLog ht _ _
  case setLogThreshold => exact h.request hs fun _ hok ht => h.takeSetLogThreshold ht _ (of_decide_eq_true hok)
  case ackNotices => exact h.request hs fun _ _ ht => h.notices _ _ (keepsRevoked_acknowledge _) ht
  case setNoticeMask => exact h.request hs fun _ _ ht => h.notices _ _ (keepsRevoked_setMask _) ht
  case clearPortError => exact h.request hs fun _ _ ht => h.port _ _ id ht
  case setTriggers => exact h.request hs fun _ _ ht => h.takeSetTriggers ht _ _ _
  case frameBegin m => exact nextSatisfies_ite hs (h.port m _ Port.Lawful.beginFrame hs)
  case portClockEdge m _ _ => exact nextSatisfies_ite (h.port m _ (fun hp => hp.clockEdge _ _) hs) hs
  case frameError m => exact nextSatisfies_ite (h.takeFrameError (h.port m _ Port.Lawful.endFrame hs) m) hs
  case unknownRequest m _ =>
    exact nextSatisfies_ite (h.port m _ (fun hp => hp.respond _ _) (h.port m _ Port.Lawful.endFrame hs)) hs
  all_goals nomatch hi

/-! ## The claim table -/

theorem Quiet.refusal (h : Quiet P) {p : Pos} (hs : P (s.setClaims (s.claims.remove p))) (e : ClaimEntry)
    (reason : RefuseReason) : P (s.refuseClaim p e reason) := h.append _ (h.raise hs e.master nofun)

theorem Quiet.grant (h : Quiet P) {p : Pos} {e : ClaimEntry} (hs : P (s.setClaims (s.grantedTable p e))) :
    P (s.grant p e) := h.append _ (h.raise hs e.master nofun)

/-- Where each refusal and each grant keeps a property, the whole evaluation does. -/
theorem Quiet.grantEvaluation (h : Quiet P)
    (hdropped : ∀ {s : State} {p : Pos} {e : ClaimEntry}, s.entry p = some e → e.isPending = true → P s →
      P (s.setClaims (s.claims.remove p)))
    (hgranted : ∀ {s : State} {p : Pos} {e : ClaimEntry}, s.entry p = some e → e.isPending = true →
      s.grantable p e = true → P s → P (s.setClaims (s.grantedTable p e)))
    (hs : P s) : P s.grantEvaluation :=
  State.grantEvaluation_induct (P := P) (fun _ _ e ht he hp _ => h.refusal (hdropped he hp ht) e .digest)
    (fun _ _ _ ht he hp hg => h.grant (hgranted he hp hg ht)) s hs

/-- What the number of a request finds stands at its position. -/
theorem State.entry_of_find {s : State} {number : Byte} {p : Pos} {e : ClaimEntry}
    (h : s.claims.find number = some (p, e)) : s.entry p = some e := (ClaimTable.find_spec h).1

theorem waitOf_spec (wait : Word16) (w : WaitTimer) (h : waitOf wait = some w) : w.limit ≠ 0 ∧ w.remaining = w.limit := by
  unfold waitOf at h
  split at h
  · cases h
  · cases h
    exact ⟨‹_›, rfl⟩

/-- A well-formed channel set names a channel (R189). -/
theorem channelSetOf_ne_zero {set : Word16} (h : isChannelSet set = true) : channelSetOf set ≠ 0 := by
  simp only [isChannelSet, Bool.and_eq_true, decide_eq_true_iff] at h
  unfold channelSetOf
  bv_omega

theorem EvaluatedKept.takeClaim (h : EvaluatedKept P Q) (hs : P s) {m : Master} {set lease wait : Word16} {presence : Byte}
    {digest : Word16} (hok : (Instr.claim m set lease wait presence digest).parametersOk = true) :
    P (takeClaim m (channelSetOf set) lease (waitOf wait) (expectedOf presence digest) s).1 := by
  simp only [Instr.parametersOk, Bool.and_eq_true, atLeastTen, decide_eq_true_iff] at hok
  obtain ⟨⟨hset, hlease⟩, -⟩ := hok
  refine passed_or_keeps hs fun hwaits => passed_or_keeps hs fun hoverlap => ?_
  cases hp : s.claims.freePosition with
  | none => exact hs
  | some p =>
    refine h.evaluated (h.ordered (.created (ClaimTable.freePosition_some.mp hp).1 (by simpa using hwaits) ?_
      (channelSetOf_ne_zero hset) hlease (waitOf_spec wait)) hs)
    intro c hc hholder
    exact hoverlap (List.any_eq_true.mpr ⟨c, mem_channelsOf.mpr hc, decide_eq_true hholder⟩)

/-- What the checks that RENEW and RELEASE share have found when they pass. -/
theorem ownClaim_passed {P : State → Prop} {s : State} {m : Master} {number : Byte}
    {take : Pos → ClaimEntry → State × Answer} (hs : P s)
    (htake : ∀ p e, s.entry p = some e → e.master = m → e.inForce = true → P (take p e).1) :
    P (ownClaim m number s take).1 := by
  unfold ownClaim
  split
  · exact hs
  · rename_i p e hfind
    refine passed_or_keeps hs fun hmaster => ?_
    split
    · exact htake p e (State.entry_of_find hfind) (not_not.mp hmaster) ‹_›
    · exact hs

theorem EvaluatedKept.takeRenew (h : EvaluatedKept P Q) (hs : P s) (m : Master) (number : Byte) : P (takeRenew m number s).1 :=
  ownClaim_passed hs fun _ _ he _ _ => h.inPlace (.renewed he) hs

theorem EvaluatedKept.endOffer (h : EvaluatedKept P Q) (hs : P s) {p : Pos} {e : ClaimEntry} {lease : Word16} {tag : Word32}
    {target : Master} {time : Word16} (he : s.entry p = some e) (hstate : e.state = .offered lease tag target time)
    (reason : HandoffReason) : P (endOffer p e lease tag reason s) :=
  h.kept.raiseHandoff (h.inPlace (.unoffered he hstate (.inl rfl)) hs) e.master reason

theorem EvaluatedKept.takeWithdraw (h : EvaluatedKept P Q) (hs : P s) (m : Master) (number : Byte) :
    P (takeWithdraw m number s).1 := by
  unfold Machine.takeWithdraw
  rcases hfind : s.claims.find number with _ | ⟨p, e⟩
  · exact hs
  · have he := State.entry_of_find hfind
    dsimp only
    cases hstate : e.state with
    | pending wait expected =>
      have hpending : e.isPending = true := by simp [ClaimEntry.isPending, ClaimEntry.inForce, hstate]
      dsimp only
      split
      · exact h.evaluated (h.ordered (.dropped he hpending) hs)
      · exact hs
    | held lease tag => exact passed_or_keeps hs fun _ => hs
    | offered lease tag target time =>
      dsimp only
      split
      · exact h.inPlace (.unoffered he hstate (.inr rfl)) hs
      · split
        · exact h.endOffer hs he hstate .declined
        · exact hs

/-- A well-formed OFFER names another master than its sender (R42). -/
theorem masterOf_ne_of_offer {m : Master} {number target : Byte} {time : Word16}
    (hok : (Instr.offer m number target time).parametersOk = true) : masterOf target ≠ m := by
  simp only [Instr.parametersOk, Bool.and_eq_true, decide_eq_true_iff, atMost] at hok
  obtain ⟨⟨⟨-, htarget⟩, hother⟩, -⟩ := hok
  rintro rfl
  refine hother ?_
  unfold masterOf
  split
  · subst_vars; rfl
  · split
    · subst_vars; rfl
    · show target = 2
      bv_omega

theorem EvaluatedKept.takeOffer (h : EvaluatedKept P Q) (hs : P s) {m : Master} {number : Byte} {target : Master} {time : Word16}
    (htarget : target ≠ m) : P (takeOffer m number target time s).1 := by
  unfold Machine.takeOffer
  rcases hfind : s.claims.find number with _ | ⟨p, e⟩
  · exact hs
  · refine passed_or_keeps hs fun hmaster => ?_
    cases hstate : e.state with
    | held lease tag =>
      exact h.kept.raise (h.inPlace (.offered target time (State.entry_of_find hfind) hstate
        (fun e => htarget (e.trans (not_not.mp hmaster)))) hs) target nofun
    | pending wait expected => exact hs
    | offered lease tag target time => exact hs

theorem EvaluatedKept.takeAccept (h : EvaluatedKept P Q) (hs : P s) {m : Master} {number : Byte} {lease : Word16}
    (hlease : 10 ≤ lease.toNat) : P (takeAccept m number lease s).1 := by
  unfold Machine.takeAccept
  rcases hfind : s.claims.find number with _ | ⟨p, e⟩
  · exact hs
  · dsimp only
    cases hstate : e.state with
    | offered old tag target time =>
      refine passed_or_keeps hs fun htarget => passed_or_keeps hs fun hwaits => ?_
      obtain rfl := not_not.mp htarget
      exact h.kept.append _ (h.kept.raiseHandoff (h.inPlace (.passed (State.entry_of_find hfind) hstate (by simpa using hwaits) hlease) hs)
        e.master .accepted)
    | pending wait expected => exact hs
    | held old tag => exact hs

theorem EvaluatedKept.waitExpiry (h : EvaluatedKept P Q) (hs : P s) (p : Pos) : NextSatisfies P (execWaitExpiry p s) := by
  unfold execWaitExpiry
  split
  · exact nextSatisfies_next.mpr hs
  · cases he : s.entry p with
    | none => exact nextSatisfies_next.mpr hs
    | some e =>
      dsimp only
      split
      case isTrue hdue =>
        have hpending : e.isPending = true := by
          unfold ClaimEntry.waitDue at hdue
          unfold ClaimEntry.isPending ClaimEntry.inForce
          cases hstate : e.state <;> simp [hstate] at hdue ⊢
        exact nextSatisfies_next.mpr (h.evaluated (h.between.refusal (h.ordered (.dropped he hpending) hs) e .timeout))
      case isFalse => exact nextSatisfies_next.mpr hs

theorem EvaluatedKept.offerLapse (h : EvaluatedKept P Q) (hs : P s) (p : Pos) : NextSatisfies P (execOfferLapse p s) := by
  unfold execOfferLapse
  split
  · exact nextSatisfies_next.mpr hs
  · cases he : s.entry p with
    | none => exact nextSatisfies_next.mpr hs
    | some e =>
      dsimp only
      cases hstate : e.state with
      | offered lease tag target time => exact nextSatisfies_ite (h.endOffer hs he hstate .lapsed) hs
      | pending wait expected => exact nextSatisfies_next.mpr hs
      | held lease tag => exact nextSatisfies_next.mpr hs

theorem EvaluatedKept.exec_claims (h : EvaluatedKept P Q) (hs : P s) {i : Instr} (hi : commandGroup i = .claims) :
    NextSatisfies P (exec i s) := by
  cases i
  case claim => exact h.kept.request hs fun _ hok ht => h.takeClaim ht hok
  case renew => exact h.kept.request hs fun _ _ ht => h.takeRenew ht _ _
  case withdraw => exact h.kept.request hs fun _ _ ht => h.takeWithdraw ht _ _
  case offer => exact h.kept.request hs fun _ hok ht => h.takeOffer ht (masterOf_ne_of_offer hok)
  case accept =>
    refine h.kept.request hs fun _ hok ht => h.takeAccept ht ?_
    simp only [Instr.parametersOk, Bool.and_eq_true, atLeastTen, decide_eq_true_iff] at hok
    exact hok.2
  case ackRevoke => exact h.kept.request hs fun _ _ ht => h.ackRevoke _ ht
  case waitExpiry => exact h.waitExpiry hs _
  case offerLapse => exact h.offerLapse hs _
  all_goals nomatch hi

/-! ## The channel units -/

/-- No event at a channel unit asks for the REVOKED notice. -/
def Ordinary (es : List ChannelEffect) : Prop := ChannelEffect.notice .revoked ∉ es

theorem Quiet.emits (h : Quiet P) (c : Ch) {es : List ChannelEffect} (hes : Ordinary es) (hs : P s) :
    P (es.foldl (State.emit c) s) := by
  induction es generalizing s with
  | nil => exact hs
  | cons x rest ih =>
    obtain ⟨hx, hrest⟩ := not_or.mp (List.mem_cons.not.mp hes)
    refine ih hrest ?_
    unfold State.emit
    cases s.holder c with
    | none => exact hs
    | some m =>
      cases x with
      | record r => exact h.append _ hs
      | notice k => exact h.raise hs m fun hk => hx (by rw [hk])

theorem ChannelsKept.channelEvent (h : ChannelsKept P) (hs : P s) (c : Ch) {f : ChannelUnit → Progress}
    (hf : ∀ u, Ordinary (f u).2) : P (s.channelEvent c f) := h.emits c (hf _) (h.channel c _ hs)

theorem ChannelsKept.channelEvents (h : ChannelsKept P) (hs : P s) (cs : List Ch) {f : ChannelUnit → Progress}
    (hf : ∀ u, Ordinary (f u).2) : P (s.channelEvents cs f) :=
  State.channelEvents_induct (P := P) cs (fun _ c _ ht => h.channelEvent ht c hf) s hs

theorem ChannelsKept.orderAll (h : ChannelsKept P) (hs : P s) (set : ChannelSet) (f : ChannelUnit → ChannelUnit) :
    P (s.orderAll set f) := by
  unfold State.orderAll
  generalize channelsOf set = cs
  induction cs generalizing s with
  | nil => exact hs
  | cons c rest ih => exact ih (h.channel c _ hs)

theorem ChannelsKept.listEvents (h : ChannelsKept P) (hs : P s) (m : Master) (set : ChannelSet) {f : ChannelUnit → Progress}
    (hf : ∀ u, Ordinary (f u).2) : P (s.listEvents m set f) := h.renewLeases m set (h.channelEvents hs _ hf)

end

end Sys2Proof.Machine
end

section
/-!
Every command, carried through by what a property makes of each kind of change: the channel units' events ask for LIST and FAULT
notices alone, and the commands that end a claim in force come down to an order, a removal and a barring.
-/

namespace Sys2Proof.Machine

/-! ## What an event at a channel unit asks for -/

@[simp] theorem ordinary_nil : Ordinary [] := List.not_mem_nil

@[simp] theorem ordinary_record {r : ChannelRecord} {es : List ChannelEffect} : Ordinary (.record r :: es) ↔ Ordinary es := by
  simp [Ordinary]

@[simp] theorem ordinary_notice {k : Notice} {es : List ChannelEffect} :
    Ordinary (.notice k :: es) ↔ Notice.revoked ≠ k ∧ Ordinary es := by
  simp [Ordinary]

@[simp] theorem ordinary_append {es fs : List ChannelEffect} : Ordinary (es ++ fs) ↔ Ordinary es ∧ Ordinary fs := by
  simp [Ordinary]

@[simp] theorem ChannelUnit.stepDone_ordinary (r : Runtime) (st : StepRecord) (u : ChannelUnit) :
    Ordinary (u.stepDone r st) := by
  unfold ChannelUnit.stepDone
  split <;> simp

@[simp] theorem ChannelUnit.endList_ordinary (r : Runtime) (u : ChannelUnit) : Ordinary (u.endList r).2 := by
  unfold ChannelUnit.endList
  dsimp only
  split <;> simp

@[simp] theorem ChannelUnit.preparePass_ordinary (tag : Word32) (r : Runtime) (u : ChannelUnit) :
    Ordinary (u.preparePass tag r).2 := by
  have hdone : Ordinary (u.passDone tag r) := by
    unfold ChannelUnit.passDone
    split <;> simp
  rw [ChannelUnit.preparePass_eq]
  split <;> exact hdone

@[simp] theorem ChannelUnit.endPass_ordinary (tag : Word32) (r : Runtime) (u : ChannelUnit) :
    Ordinary (u.endPass tag r).2 := by
  unfold ChannelUnit.endPass
  split <;> simp

@[simp] theorem ChannelUnit.endStep_ordinary (tag : Word32) (r : Runtime) (st : StepRecord) (u : ChannelUnit) :
    Ordinary (u.endStep tag r st).2 := by
  unfold ChannelUnit.endStep
  dsimp only
  split
  · split <;> simp
  · simp

theorem ChannelUnit.endSteps_ordinary (tag : Word32) (n : Nat) (u : ChannelUnit) : Ordinary (u.endSteps tag n).2 := by
  induction n generalizing u with
  | zero => exact ordinary_nil
  | succ n ih =>
    unfold ChannelUnit.endSteps
    cases u.endingStep with
    | none => exact ordinary_nil
    | some x => exact ordinary_append.mpr ⟨u.endStep_ordinary tag x.1 x.2, ih _⟩

@[simp] theorem ChannelUnit.finish_ordinary (tag : Word32) (u : ChannelUnit) : Ordinary (u.finish tag).2 :=
  u.endSteps_ordinary tag _

theorem configChange_ordinary (f : ChannelUnit → ChannelUnit) (u : ChannelUnit) : Ordinary (configChange f u).2 := by
  simp [configChange]

theorem ChannelUnit.start_ordinary (tag : Word32) (source : Option Line) (u : ChannelUnit) :
    Ordinary (u.start tag source).2 := by
  cases source
  · exact ChannelUnit.finish_ordinary tag _
  · exact ordinary_nil

theorem ChannelUnit.stopNow_ordinary (u : ChannelUnit) : Ordinary u.stopNow.2 := by
  unfold ChannelUnit.stopNow
  dsimp only
  split
  case h_1 => simp
  case h_2 | h_3 => split <;> simp
  all_goals exact ordinary_nil

theorem ChannelUnit.stop_ordinary (mode : Byte) (u : ChannelUnit) : Ordinary (u.stop mode).2 := by
  unfold ChannelUnit.stop
  split
  · exact u.stopNow_ordinary
  · unfold ChannelUnit.stopAtPassEnd
    split
    case h_1 => exact u.stopNow_ordinary
    case h_2 | h_3 =>
      split
      · exact u.stopNow_ordinary
      all_goals exact ordinary_nil
    all_goals exact ordinary_nil

theorem ChannelUnit.pause_ordinary (u : ChannelUnit) : Ordinary u.pause.2 := by
  unfold ChannelUnit.pause
  dsimp only
  split
  · split <;> exact ordinary_nil
  all_goals exact ordinary_nil

theorem ChannelUnit.resumeContinue_ordinary (tag : Word32) (u : ChannelUnit) : Ordinary (u.resumeContinue tag).2 := by
  unfold ChannelUnit.resumeContinue
  split
  · split
    case h_4 => split <;> simp
    all_goals exact ChannelUnit.finish_ordinary tag _
  all_goals exact ordinary_nil

theorem ChannelUnit.resume_ordinary (tag : Word32) (mode : Byte) (u : ChannelUnit) : Ordinary (u.resume tag mode).2 := by
  unfold ChannelUnit.resume
  split
  · exact u.resumeContinue_ordinary tag
  · unfold ChannelUnit.resumeRepeat
    split
    · split
      case h_4 => exact u.resumeContinue_ordinary tag
      all_goals exact ChannelUnit.finish_ordinary tag _
    all_goals exact ordinary_nil

theorem ChannelUnit.proceed_ordinary (tag : Word32) (u : ChannelUnit) : Ordinary (u.proceed tag).2 := by
  unfold ChannelUnit.proceed
  split
  · split <;> simp
  · exact ordinary_nil

theorem ChannelUnit.moveAdvance_ordinary (tag : Word32) (u : ChannelUnit) : Ordinary (u.moveAdvance tag).2 := by
  unfold ChannelUnit.moveAdvance
  dsimp only
  split
  · split
    · split
      · split <;> simp
      · exact ordinary_nil
    · exact ordinary_nil
  all_goals exact ordinary_nil

theorem ChannelUnit.checkPass_ordinary (tag : Word32) (ck : Check) (v : Verdict) (u : ChannelUnit) :
    Ordinary (u.checkPass tag ck v).2 := by
  unfold ChannelUnit.checkPass
  cases ck.origin <;> cases ck.previous <;> simp

theorem ChannelUnit.onFault_ordinary (tag : Word32) (u : ChannelUnit) : Ordinary (u.onFault tag).2 := by
  unfold ChannelUnit.onFault
  split
  · exact ordinary_nil
  · split <;> simp

theorem ChannelUnit.checkFail_ordinary (tag : Word32) (ck : Check) (v : Verdict) (u : ChannelUnit) :
    Ordinary (u.checkFail tag ck v).2 := by
  unfold ChannelUnit.checkFail
  cases ck.origin <;> simp [ChannelUnit.onFault_ordinary]

theorem ChannelUnit.settleExpiry_ordinary (tag : Word32) (raw : FaultSet) (u : ChannelUnit) :
    Ordinary (u.settleExpiry tag raw).2 := by
  unfold ChannelUnit.settleExpiry
  dsimp only
  split
  · split
    · split
      · exact u.checkPass_ordinary tag _ _
      · split
        · exact ordinary_nil
        · exact u.checkFail_ordinary tag _ _
    · exact ordinary_nil
  all_goals exact ordinary_nil

theorem ChannelUnit.dwellExpiry_ordinary (tag : Word32) (u : ChannelUnit) : Ordinary (u.dwellExpiry tag).2 := by
  unfold ChannelUnit.dwellExpiry
  split
  · split <;> simp
  all_goals exact ordinary_nil

theorem ChannelUnit.gapExpiry_ordinary (tag : Word32) (u : ChannelUnit) : Ordinary (u.gapExpiry tag).2 := by
  unfold ChannelUnit.gapExpiry
  split
  · split <;> simp
  all_goals exact ordinary_nil

theorem ChannelUnit.edge_ordinary (tag : Word32) (l : Line) (u : ChannelUnit) : Ordinary (u.edge tag l).2 := by
  unfold ChannelUnit.edge
  split
  · exact ChannelUnit.finish_ordinary tag _
  · split
    · split <;> simp
    · exact ordinary_nil

/-! ## The commands that reach the channel units -/

section
variable {P Q : State → Prop} {s : State}

theorem ChannelsKept.takeConfigChange (h : ChannelsKept P) (hs : P s) (m : Master) (c : Ch) (f : ChannelUnit → ChannelUnit) :
    P (takeConfigChange m c f s).1 := h.renewLeases m _ (h.channelEvent hs c (configChange_ordinary f))

theorem ChannelsKept.takeOnChannel (h : ChannelsKept P) (hs : P s) (m : Master) (c : Ch) (f : ChannelUnit → ChannelUnit) :
    P ((s.onChannel c f).renewLeases m (onlyChannel c)) := h.renewLeases m _ (h.channel c _ hs)

theorem ChannelsKept.channelTimer (h : ChannelsKept P) (hs : P s) (c : Ch) {f : ChannelUnit → Progress}
    (hf : ∀ u, Ordinary (f u).2) : P (s.channelTimer c f) := by
  unfold State.channelTimer
  split
  · exact hs
  · exact h.channelEvent hs c hf

theorem ChannelsKept.transition (h : ChannelsKept P) (hs : P s) (l : Line) (level : Level) : P (s.transition l level) := by
  have hline : P (s.setLine l { s.line l with level := level }) := h.line l _ hs
  unfold State.transition
  split
  · exact h.channelEvents hline allChannels (ChannelUnit.edge_ordinary _ l)
  · exact hline

theorem ChannelsKept.exec_channels (h : ChannelsKept P) (hs : P s) {i : Instr} (hi : commandGroup i = .channels) :
    NextSatisfies P (exec i s) := by
  cases i
  case setRange =>
    exact h.request hs fun t _ ht =>
      ownChannel_keeps ht (refused_or_keeps ht (refused_or_keeps ht (h.takeConfigChange ht _ _ _)))
  case setPolicy =>
    exact h.request hs fun t _ ht => ownChannel_keeps ht (refused_or_keeps ht (h.takeConfigChange ht _ _ _))
  case write =>
    exact h.request hs fun t _ ht =>
      ownChannel_keeps ht (refused_or_keeps ht (refused_or_keeps ht (refused_or_keeps ht (h.takeOnChannel ht _ _ _))))
  case clearFault => exact h.request hs fun t _ ht => ownChannel_keeps ht (h.takeOnChannel ht _ _ _)
  case loadStep | setList =>
    exact h.request hs fun t _ ht =>
      ownChannel_keeps ht (refused_or_keeps ht (refused_or_keeps ht (h.takeOnChannel ht _ _ _)))
  case start =>
    exact h.request hs fun t _ ht => ownSet_keeps ht
      (refused_or_keeps ht (refused_or_keeps ht (h.listEvents ht _ _ (ChannelUnit.start_ordinary _ _))))
  case stop =>
    exact h.request hs fun t _ ht =>
      ownSet_keeps ht (refused_or_keeps ht (h.listEvents ht _ _ (ChannelUnit.stop_ordinary _)))
  case pause =>
    exact h.request hs fun t _ ht =>
      ownSet_keeps ht (refused_or_keeps ht (h.listEvents ht _ _ ChannelUnit.pause_ordinary))
  case resume =>
    exact h.request hs fun t _ ht =>
      ownSet_keeps ht (refused_or_keeps ht (h.listEvents ht _ _ (ChannelUnit.resume_ordinary _ _)))
  case proceed =>
    exact h.request hs fun t _ ht => ownSet_keeps ht (h.listEvents ht _ _ (ChannelUnit.proceed_ordinary _))
  case moveAdvance => exact nextSatisfies_next.mpr (h.channelTimer hs _ (ChannelUnit.moveAdvance_ordinary _))
  case settleExpiry => exact nextSatisfies_next.mpr (h.channelTimer hs _ (ChannelUnit.settleExpiry_ordinary _ _))
  case dwellExpiry => exact nextSatisfies_next.mpr (h.channelTimer hs _ (ChannelUnit.dwellExpiry_ordinary _))
  case gapExpiry => exact nextSatisfies_next.mpr (h.channelTimer hs _ (ChannelUnit.gapExpiry_ordinary _))
  case triggerTransition => exact nextSatisfies_ite hs (h.transition hs _ _)
  all_goals nomatch hi

/-! ## The commands that end a claim in force -/

theorem ClaimEntry.inForce_of_leaseDue {e : ClaimEntry} (h : e.leaseDue = true) : e.inForce = true := by
  unfold ClaimEntry.leaseDue ClaimEntry.leaseRemaining at h
  unfold ClaimEntry.inForce
  cases hstate : e.state <;> simp [hstate] at h ⊢

/-- What the end of a claim in force, before the grant evaluation that follows, has to keep. -/
structure FreeingKept (P Q : State → Prop) : Prop extends EvaluatedKept P Q where
  channel : ∀ {s : State} (c : Ch) (u : ChannelUnit), P s → P (s.setChannel c u)
  freed : ∀ {s : State} {p : Pos} {e : ClaimEntry}, s.entry p = some e → e.inForce = true → P s →
    Q (s.setClaims (s.claims.remove p))
  bar : ∀ {s : State} (m : Master), Q s → Q ((s.setRevoke m .barred).raise m .revoked)

theorem FreeingKept.orderAll (h : FreeingKept P Q) (hs : P s) (set : ChannelSet) (f : ChannelUnit → ChannelUnit) :
    P (s.orderAll set f) := by
  unfold State.orderAll
  generalize channelsOf set = cs
  induction cs generalizing s with
  | nil => exact hs
  | cons c rest ih => exact ih (h.channel c _ hs)

/-- The orders to the channels of a claim, and its removal. -/
theorem FreeingKept.orderedAndFreed (h : FreeingKept P Q) (hs : P s) {p : Pos} {e : ClaimEntry} (he : s.entry p = some e)
    (hforce : e.inForce = true) (f : ChannelUnit → ChannelUnit) :
    Q ((s.orderAll e.set f).setClaims ((s.orderAll e.set f).claims.remove p)) := by
  refine h.freed ?_ hforce (h.orderAll hs e.set f)
  rw [State.entry, State.orderAll_claims]
  exact he

theorem FreeingKept.revokeClaim (h : FreeingKept P Q) (hs : P s) {p : Pos} {e : ClaimEntry} (he : s.entry p = some e)
    (hforce : e.inForce = true) : P (revokeClaim p e s) :=
  h.evaluated (h.between.append _ (h.bar e.master (h.orderedAndFreed hs he hforce _)))

theorem FreeingKept.takeRelease (h : FreeingKept P Q) (hs : P s) (m : Master) (number : Byte) (mode : ReleaseMode) :
    P (takeRelease m number mode s).1 :=
  ownClaim_passed hs fun _ _ he _ hforce => h.evaluated (h.between.append _ (h.orderedAndFreed hs he hforce _))

theorem FreeingKept.exec_freeing (h : FreeingKept P Q) (hs : P s) {i : Instr} (hi : commandGroup i = .freeing) :
    NextSatisfies P (exec i s) := by
  cases i
  case release => exact h.kept.request hs fun _ _ ht => h.takeRelease ht _ _ _
  case leaseExpiry p =>
    show NextSatisfies P (execLeaseExpiry p s)
    unfold execLeaseExpiry
    split
    · exact nextSatisfies_next.mpr hs
    · cases he : s.entry p with
      | none => exact nextSatisfies_next.mpr hs
      | some e =>
        dsimp only
        split
        case isTrue hdue => exact nextSatisfies_next.mpr (h.revokeClaim hs he (ClaimEntry.inForce_of_leaseDue hdue))
        case isFalse => exact nextSatisfies_next.mpr hs
  all_goals nomatch hi

/-! ## Every command -/

theorem StepKept.freeingKept (h : StepKept P) : FreeingKept P P where
  kept := h.toQuiet
  between := h.toQuiet
  inPlace := h.inPlace
  ordered := h.ordered
  evaluated := h.grantEvaluation (fun he hp => h.ordered (.dropped he hp)) h.granted
  ackRevoke := h.ackRevoke
  channel := h.channel
  freed := h.freed
  bar := h.bar

/-- A property that every kind of change keeps is kept by every command that is no reset and ends no millisecond. -/
theorem StepKept.exec (h : StepKept P) (hs : P s) {i : Instr} (hi : commandGroup i ≠ .device) :
    NextSatisfies P (exec i s) := by
  cases hgroup : commandGroup i with
  | quiet => exact h.toQuiet.exec hs hgroup
  | claims => exact h.freeingKept.exec_claims hs hgroup
  | freeing => exact h.freeingKept.exec_freeing hs hgroup
  | channels => exact h.exec_channels hs hgroup
  | device => exact absurd hgroup hi

/-! ## The whole part -/

theorem Quiet.exec_resetDevice (h : Quiet P) (hs : P s) (m : Master)
    (hsoft : ∀ {t : State}, P t → P (t.softReset m)) : NextSatisfies P (Machine.exec (.resetDevice m) s) := by
  refine h.request hs fun t _ ht => ?_
  unfold takeResetDevice
  split
  · exact hsoft ht
  · exact ht

theorem exec_timeTagAdvance_keeps (hs : P s) (htick : s.inReset = false → s.anyDue = false → P s.millisecond) :
    NextSatisfies P (Machine.exec .timeTagAdvance s) := by
  show NextSatisfies P (execTimeTagAdvance s)
  unfold execTimeTagAdvance
  split
  case isTrue => exact nextSatisfies_next.mpr hs
  case isFalse hidle =>
    simp only [Bool.or_eq_true, not_or, Bool.not_eq_true] at hidle
    exact nextSatisfies_next.mpr (htick hidle.1 hidle.2)

theorem Quiet.exec_device (h : Quiet P) (hsoft : ∀ {t : State} (m : Master), P t → P (t.softReset m))
    (htick : ∀ {t : State}, t.inReset = false → t.anyDue = false → P t → P t.millisecond)
    (hfull : ∀ (inReset : Bool) (level0 level1 : Level), P (fullResetState s.pending inReset level0 level1)) (hs : P s)
    {i : Instr} (hi : commandGroup i = .device) : NextSatisfies P (Machine.exec i s) := by
  cases i
  case resetDevice m => exact h.exec_resetDevice hs m fun ht => hsoft m ht
  case fullReset => exact nextSatisfies_next.mpr (hfull _ _ _)
  case fullResetEnd => exact nextSatisfies_ite (hfull _ _ _) hs
  case timeTagAdvance => exact exec_timeTagAdvance_keeps hs fun hreset hdue => htick hreset hdue hs
  all_goals nomatch hi

/-- Beside the kinds of change, a command that is no full reset is a soft reset or the end of a millisecond. -/
theorem StepKept.exec_unless_full (h : StepKept P) (hsoft : ∀ {t : State} (m : Master), P t → P (t.softReset m))
    (htick : ∀ {t : State}, t.inReset = false → t.anyDue = false → P t → P t.millisecond) (hs : P s) {i : Instr}
    (hreset : ∀ source, i ≠ .fullReset source) (hend : ∀ level0 level1, i ≠ .fullResetEnd level0 level1) :
    NextSatisfies P (Machine.exec i s) := by
  by_cases hi : commandGroup i = .device
  case neg => exact h.exec hs hi
  cases i
  case resetDevice m => exact h.exec_resetDevice hs m fun ht => hsoft m ht
  case fullReset source => exact absurd rfl (hreset source)
  case fullResetEnd level0 level1 => exact absurd rfl (hend level0 level1)
  case timeTagAdvance => exact exec_timeTagAdvance_keeps hs fun hreset hdue => htick hreset hdue hs
  all_goals nomatch hi

/-- A property that holds in the full-reset states as well is kept by every command. -/
theorem StepKept.exec_all (h : StepKept P) (hsoft : ∀ {t : State} (m : Master), P t → P (t.softReset m))
    (htick : ∀ {t : State}, t.inReset = false → t.anyDue = false → P t → P t.millisecond)
    (hfull : ∀ (inReset : Bool) (level0 level1 : Level), P (fullResetState s.pending inReset level0 level1)) (hs : P s)
    (i : Instr) : NextSatisfies P (Machine.exec i s) := by
  by_cases hi : commandGroup i = .device
  · exact h.exec_device hsoft htick hfull hs hi
  · exact h.exec hs hi

end

/-- A property that every command keeps, whatever waits behind it in the queue, is kept by every step. -/
theorem step_keeps {P : State → Prop} {s t : State} (hs : P s) (hqueue : ∀ rest, P s → P { s with pending := rest })
    (hexec : ∀ (i : Instr) (s : State), P s → NextSatisfies P (exec i s)) (hstep : step s = .next t) : P t := by
  unfold step at hstep
  cases hpending : s.pending with
  | nil =>
    rw [hpending] at hstep
    exact Host.Outcome.next.inj hstep ▸ hs
  | cons c rest =>
    rw [hpending] at hstep
    exact hexec c _ (hqueue rest hs) t hstep

end Sys2Proof.Machine
end

section
/-!
The laws of the revoke states (R37, R163), of the log (R148, R153), of the ports (R170) and of the held part: each is kept by
every kind of change, and so by every step.
-/

namespace Sys2Proof.Machine

/-! ## The revoke states -/

theorem State.barred_iff {s : State} {m : Master} : s.barred m = true ↔ s.claims.revoke.get m = .barred :=
  decide_eq_true_iff

/-- The law looks at the revoke states and the pending notices alone. -/
theorem RevokeLaw.of_eq {s t : State} (h : RevokeLaw s) (hrevoke : t.claims.revoke = s.claims.revoke)
    (hpending : ∀ m, Notice.revoked.isIn (t.notice m).pending ↔ Notice.revoked.isIn (s.notice m).pending) :
    RevokeLaw t := by
  intro m
  rw [State.barred_iff, hrevoke, hpending m, ← State.barred_iff]
  exact h m

theorem RevokeLaw.append {s : State} (h : RevokeLaw s) (b : RecordBody) : RevokeLaw (s.append b) := by
  refine h.of_eq rfl fun m => ?_
  rcases s.notice_append b m with e | e <;> rw [e]
  exact keepsRevoked_raise (k := .log) nofun _

theorem RevokeLaw.onNotices {s : State} (h : RevokeLaw s) (m : Master) {f : NoticeState → NoticeState}
    (hf : KeepsRevoked f) : RevokeLaw (s.onNotices m f) := by
  refine h.of_eq rfl fun n => ?_
  by_cases hn : n = m
  · subst hn
    rw [State.notice_onNotices_same]
    exact hf _
  · rw [State.notice_onNotices_other s f hn]

/-- A revoke state and the REVOKED notice of a master that change together. -/
theorem RevokeLaw.setRevoke {s : State} (h : RevokeLaw s) (m : Master) (r : RevokeState) (f : NoticeState → NoticeState)
    (hf : ∀ n, Notice.revoked.isIn (f n).pending ↔ r = .barred) : RevokeLaw ((s.setRevoke m r).onNotices m f) := by
  intro n
  have hrevoke : ((s.setRevoke m r).onNotices m f).claims.revoke = s.claims.revoke.set m r := rfl
  rw [State.barred_iff, hrevoke]
  by_cases hn : n = m
  · subst hn
    rw [PerMaster.get_set_same, State.notice_onNotices_same, hf]
  · rw [PerMaster.get_set_other _ _ hn, State.notice_onNotices_other _ f hn, ← State.barred_iff]
    exact h n

theorem revoked_isIn_raise (n : NoticeState) : Notice.revoked.isIn (n.raise .revoked).pending := by
  show Notice.revoked.isIn (n.pending ||| Notice.revoked.bit)
  rw [Notice.isIn_or]
  exact .inr (Notice.isIn_bit_iff.mpr rfl)

theorem revoked_not_isIn_clearRevoked (n : NoticeState) : ¬ Notice.revoked.isIn n.clearRevoked.pending := by
  show ¬ Notice.revoked.isIn (n.pending &&& ~~~Notice.revoked.bit)
  rw [Notice.isIn_and, Notice.isIn_not]
  exact fun h => h.2 (Notice.isIn_bit_iff.mpr rfl)

theorem revokeLaw_kept : StepKept RevokeLaw where
  port m q _ h := h
  append b h := h.append b
  notices m f hf h := h.onNotices m hf
  reader m r _ _ h := h
  line l tl h := by cases l <;> exact h
  renewLeases m set h := h
  inPlace hc h := h.of_eq hc.revoke_eq fun _ => Iff.rfl
  ordered hc h := h.of_eq hc.revoke_eq fun _ => Iff.rfl
  granted _ _ _ h := h
  ackRevoke m h := h.setRevoke m .active _ fun n => iff_of_false (revoked_not_isIn_clearRevoked n) nofun
  channel c u h := h
  freed _ _ h := h
  bar m h := h.setRevoke m .barred _ fun n => iff_of_true (revoked_isIn_raise n) rfl

/-- With no master BARRED and no notice pending, the law holds. -/
theorem RevokeLaw.of_none {s : State} (hrevoke : s.claims.revoke = .all .active) (hpending : ∀ m, (s.notice m).pending = 0) :
    RevokeLaw s := by
  intro m
  rw [State.barred_iff, hrevoke, PerMaster.get_all, hpending]
  exact iff_of_false nofun (not_not_intro BitVec.zero_and)

theorem RevokeLaw.softReset (s : State) (m : Master) : RevokeLaw (s.softReset m) := by
  refine .of_none rfl fun n => ?_
  have e : (s.softReset m).notice n = (s.notice n).softReset := PerMaster.get_mapWith ..
  rw [e]
  rfl

theorem fullResetState_revokeLaw (pending : List Instr) (inReset : Bool) (level0 level1 : Level) :
    RevokeLaw (fullResetState pending inReset level0 level1) :=
  .of_none rfl fun m => by cases m <;> rfl

/-- Settles O51: a revoke state and its REVOKED notice change together or not at all. -/
theorem revokeLawKept : Obligations.RevokeLawKept := fun _ _ hs hstep =>
  step_keeps hs (fun _ h => h)
    (fun i _ h => revokeLaw_kept.exec_all (fun m _ => .softReset _ m) (fun _ _ ht => ht)
      (fullResetState_revokeLaw _) h i) hstep

/-! ## The log -/

/-- The law looks at the log alone. -/
theorem LogLaw.of_log_eq {s t : State} (h : LogLaw s) (e : t.log = s.log) : LogLaw t := by
  unfold LogLaw
  rw [e]
  exact h

/-- The records of a lawful log stay in sequence with one more at their end, whether the oldest is kept or not. -/
theorem seq_append {records : List LogRecord} {next : Word16} {record : LogRecord} (hrecord : record.seq = next)
    (hseq : ∀ n (h : n < records.length), records[n].seq = next - BitVec.ofNat 16 (records.length - n)) (n : Nat)
    (h : n < (records ++ [record]).length) :
    (records ++ [record])[n].seq = next + 1 - BitVec.ofNat 16 ((records ++ [record]).length - n) := by
  have hlength : (records ++ [record]).length = records.length + 1 := by simp
  rw [hlength] at h ⊢
  by_cases hn : n < records.length
  · rw [List.getElem_append_left hn, hseq n hn, show records.length + 1 - n = records.length - n + 1 by omega,
      BitVec.ofNat_add]
    bv_omega
  · obtain rfl : n = records.length := by omega
    rw [List.getElem_append_right le_rfl]
    simp [hrecord]

/-- The numbers of the records that a full log keeps. -/
theorem seq_drop {records : List LogRecord} {next : Word16}
    (hseq : ∀ n (h : n < records.length), records[n].seq = next - BitVec.ofNat 16 (records.length - n)) (n : Nat)
    (h : n < (records.drop 1).length) :
    (records.drop 1)[n].seq = next - BitVec.ofNat 16 ((records.drop 1).length - n) := by
  simp only [List.length_drop] at h ⊢
  rw [List.getElem_drop, hseq (1 + n) (by omega)]
  congr 2
  omega

/-- A reader that an append leaves has one more unread record, or all the log where it was carried forward. -/
theorem LogLaw.append_unread {s : State} (h : LogLaw s) (b : RecordBody) (m : Master) :
    (s.append b).log.unread ((s.append b).log.readers.get m) ≤ (s.append b).log.records.length := by
  obtain ⟨hcapacity, -, hreaders⟩ := id h
  have hunread := (hreaders m).1
  unfold CompletionLog.unread at hunread ⊢
  rw [State.append_log, CompletionLog.append_nextSeq]
  by_cases hfull : s.log.records.length = 64
  · have hlength : (s.log.append s.timeTag b).records.length = 64 := by
      rw [h.append_full hfull]
      simp [hfull]
    rw [hlength]
    by_cases hcursor : (s.log.readers.get m).cursor = s.log.nextSeq - 64
    · rw [h.append_reader_carried hfull _ _ hcursor]
      bv_omega
    · rw [h.append_reader_kept _ _ (.inr hcursor)]
      rw [hfull] at hunread
      bv_omega
  · have hlength : (s.log.append s.timeTag b).records.length = s.log.records.length + 1 := by
      rw [h.append_not_full hfull]
      simp
    rw [h.append_reader_kept _ _ (.inl hfull), hlength]
    bv_omega

theorem LogLaw.append {s : State} (h : LogLaw s) (b : RecordBody) : LogLaw (s.append b) := by
  obtain ⟨hcapacity, hseq, hreaders⟩ := id h
  refine ⟨?_, ?_, fun m => ⟨h.append_unread b m, ?_⟩⟩
  case refine_3 =>
    rw [State.append_log, CompletionLog.append_threshold]
    exact (hreaders m).2
  all_goals
    rw [State.append_log]
    by_cases hfull : s.log.records.length = 64
  · rw [h.append_full hfull]
    simp [hfull, Config.logCapacity]
  · rw [h.append_not_full hfull]
    simp only [List.length_append, List.length_singleton]
    exact lt_of_le_of_ne hcapacity hfull
  · rw [h.append_full hfull]
    exact seq_append rfl (seq_drop hseq)
  · rw [h.append_not_full hfull]
    exact seq_append rfl hseq

/-- A reader that leaves no more unread than before, under a threshold of at most 64. -/
theorem LogLaw.setReader {s : State} (h : LogLaw s) (m : Master) {r : LogReader}
    (hunread : s.log.unread r ≤ s.log.unread (s.log.readers.get m))
    (hthreshold : r.threshold.toNat ≤ max (s.log.readers.get m).threshold.toNat 64) : LogLaw (s.setReader m r) := by
  obtain ⟨hcapacity, hseq, hreaders⟩ := h
  refine ⟨hcapacity, hseq, fun n => ?_⟩
  have hlog : (s.setReader m r).log.readers = s.log.readers.set m r := rfl
  rw [hlog]
  by_cases hn : n = m
  · subst hn
    rw [PerMaster.get_set_same]
    exact ⟨hunread.trans (hreaders n).1, hthreshold.trans (max_le (hreaders n).2 le_rfl)⟩
  · rw [PerMaster.get_set_other _ _ hn]
    exact hreaders n

theorem logLaw_kept : StepKept LogLaw where
  port m q _ h := h
  append b h := h.append b
  notices m f _ h := h
  reader m r hunread hthreshold h := h.setReader m hunread hthreshold
  line l tl h := by cases l <;> exact h
  renewLeases m set h := h
  inPlace _ h := h
  ordered _ h := h
  granted _ _ _ h := h
  ackRevoke m h := h
  channel c u h := h
  freed _ _ h := h
  bar m h := h

/-- After a soft reset the log holds the one record of it, which every master has still to read (R160). -/
theorem LogLaw.softReset {s : State} (h : LogLaw s) (m : Master) : LogLaw (s.softReset m) := by
  refine ⟨show 1 ≤ 64 by decide, fun n hn => ?_, fun d => ?_⟩
  · obtain rfl : n = 0 := Nat.lt_one_iff.mp hn
    show (0 : Word16) = 1 - BitVec.ofNat 16 (1 - 0)
    decide
  · have hreader : (s.softReset m).log.readers.get d = { s.log.readers.get d with cursor := 0, gap := false } :=
      PerMaster.get_mapWith ..
    rw [hreader]
    exact ⟨show (1 - 0 : Word16).toNat ≤ 1 by decide, (h.2.2 d).2⟩

theorem fullResetState_logLaw (pending : List Instr) (inReset : Bool) (level0 level1 : Level) :
    LogLaw (fullResetState pending inReset level0 level1) := by
  refine ⟨Nat.zero_le _, fun n hn => absurd hn (Nat.not_lt_zero n), fun m => ?_⟩
  cases m <;> exact ⟨show (0 - 0 : Word16).toNat ≤ 0 by decide, Nat.zero_le _⟩

/-- Settles O52: an append leaves the ring in sequence and carries the readers with it, and a reading only moves a cursor over
records that stand in the log. -/
theorem logLawKept : Obligations.LogLawKept := fun _ _ hs hstep =>
  step_keeps hs (fun _ h => h)
    (fun i _ h => logLaw_kept.exec_all (fun m ht => ht.softReset m) (fun _ _ ht => ht) (fullResetState_logLaw _) h i) hstep

/-! ## The ports -/

theorem PortLaw.setPort {s : State} (h : PortLaw s) (m : Master) {q : Port} (hq : (s.port m).Lawful → q.Lawful) :
    PortLaw (s.setPort m q) := by
  intro n
  by_cases hn : n = m
  · subst hn
    rw [State.port_setPort_same]
    exact hq (h n)
  · rw [State.port_setPort_other s q hn]
    exact h n

theorem portLaw_kept : StepKept PortLaw where
  port m q hq h := h.setPort m hq
  append b h := h
  notices m f _ h := h
  reader m r _ _ h := h
  line l tl h := by cases l <;> exact h
  renewLeases m set h := h
  inPlace _ h := h
  ordered _ h := h
  granted _ _ _ h := h
  ackRevoke m h := h
  channel c u h := h
  freed _ _ h := h
  bar m h := h

theorem PortLaw.softReset {s : State} (h : PortLaw s) (m : Master) : PortLaw (s.softReset m) := by
  rw [portLaw_iff] at h ⊢
  intro n
  have e : (s.softReset m).port n = (s.port n).softReset := PerMaster.get_mapWith ..
  rw [e]
  exact (h n).softReset

theorem fullResetState_portLaw (pending : List Instr) (inReset : Bool) (level0 level1 : Level) :
    PortLaw (fullResetState pending inReset level0 level1) := by
  rw [portLaw_iff]
  intro m
  cases m <;> exact Port.reset_lawful

/-! ## The part held in full reset (R186) -/

/-- No command but the two of a full reset changes whether the part is held. -/
theorem inReset_kept (held : Bool) : StepKept (fun s => s.inReset = held) where
  port m q _ h := h
  append b h := h
  notices m f _ h := h
  reader m r _ _ h := h
  line l tl h := by cases l <;> exact h
  renewLeases m set h := h
  inPlace _ h := h
  ordered _ h := h
  granted _ _ _ h := h
  ackRevoke m h := h
  channel c u h := h
  freed _ _ h := h
  bar m h := h

/-- While the part is held, no frame ends at any port. -/
theorem State.frameEnd_held {s : State} (h : s.inReset = true) (m : Master) : s.frameEnd m = none := if_pos h

theorem execTimeTagAdvance_held {s : State} (h : s.inReset = true) : execTimeTagAdvance s = .next s := by
  simp [execTimeTagAdvance, h]

/-- A held part takes nothing but a full reset and its end: no frame begins or ends, and no timer or edge counts. -/
theorem exec_held {i : Instr} {s : State} (h : s.inReset = true) (hreset : ∀ source, i ≠ .fullReset source)
    (hend : ∀ level0 level1, i ≠ .fullResetEnd level0 level1) : exec i s = .next s := by
  have hframe : ∀ (j : Instr) (m : Master), s.frameEnd m ≠ some j := fun j m => by
    rw [State.frameEnd_held h]
    exact nofun
  have htimer : ∀ (c : Ch) (f : ChannelUnit → Progress), s.channelTimer c f = s := fun c f => if_pos h
  cases i
  case fullReset source => exact absurd rfl (hreset source)
  case fullResetEnd level0 level1 => exact absurd rfl (hend level0 level1)
  case frameBegin | waitExpiry | leaseExpiry | offerLapse => exact if_pos h
  case portClockEdge => exact if_neg fun hc => Bool.false_ne_true (hc.1.symm.trans h)
  case moveAdvance | settleExpiry | dwellExpiry | gapExpiry => exact congrArg Host.Outcome.next (htimer _ _)
  case triggerTransition => exact if_pos (.inl h)
  case timeTagAdvance => exact execTimeTagAdvance_held h
  all_goals exact atFrameEnd_absent (hframe _ _)

theorem fullResetState_heldLaw (pending : List Instr) (inReset : Bool) (level0 level1 : Level) :
    HeldLaw (fullResetState pending inReset level0 level1) := by
  intro h
  cases h
  rfl

/-- A command other than the full resets leaves a held part as it is, and does not begin a hold. -/
theorem HeldLaw.exec {s : State} (h : HeldLaw s) (i : Instr) : NextSatisfies HeldLaw (exec i s) := by
  by_cases hfull : (∃ source, i = .fullReset source) ∨ ∃ level0 level1, i = .fullResetEnd level0 level1
  · rcases hfull with ⟨source, rfl⟩ | ⟨level0, level1, rfl⟩
    · exact nextSatisfies_next.mpr (fullResetState_heldLaw _ _ _ _)
    · exact nextSatisfies_ite (fullResetState_heldLaw _ _ _ _) h
  · obtain ⟨hreset, hend⟩ := not_or.mp hfull
    have hreset : ∀ source, i ≠ .fullReset source := fun source e => hreset ⟨source, e⟩
    have hend : ∀ level0 level1, i ≠ .fullResetEnd level0 level1 := fun level0 level1 e => hend ⟨level0, level1, e⟩
    cases hheld : s.inReset with
    | true =>
      rw [exec_held hheld hreset hend]
      exact nextSatisfies_next.mpr h
    | false =>
      intro t ht htrue
      have hfalse : t.inReset = false :=
        (inReset_kept false).exec_unless_full (fun _ h => h) (fun _ _ h => h) hheld hreset hend t ht
      exact absurd (htrue.symm.trans hfalse) nofun

/-- Settles O59: every change of a port leaves whole frames, and a held part takes nothing but the resets, which put it at its
full-reset values. -/
theorem portAndHeldLawsKept : Obligations.PortAndHeldLawsKept := by
  refine ⟨fun _ _ hs hstep => ?ports, fun s _ hs hstep => ?held⟩
  case ports =>
    exact step_keeps hs (fun _ h => h)
      (fun i _ h => portLaw_kept.exec_all (fun m ht => ht.softReset m) (fun _ _ ht => ht) (fullResetState_portLaw _) h i) hstep
  case held =>
    refine step_keeps hs (fun rest h hr => ?_) (fun i _ h => h.exec i) hstep
    have e := h hr
    rw [e]
    rfl

/-! ## The queue (log 2) -/

/-- Every command has a next state. -/
def HasNext (r : Result) : Prop := ∃ t, r = .next t

theorem hasNext_next (t : State) : HasNext (.next t) := ⟨t, rfl⟩

theorem hasNext_ite {c : Prop} [Decidable c] {a b : Result} (ha : HasNext a) (hb : HasNext b) :
    HasNext (if c then a else b) := by
  split
  · exact ha
  · exact hb

theorem atFrameEnd_hasNext (i : Instr) (m : Master) (take : State → State) (s : State) : HasNext (atFrameEnd i m take s) :=
  hasNext_ite (hasNext_next _) (hasNext_next _)

/-- An expiry at a position, when the part is not held and an entry stands there, does what `f` says of the entry. -/
theorem hasNext_atEntry (s : State) (p : Pos) {f : ClaimEntry → Result} (hf : ∀ e, HasNext (f e)) :
    HasNext (if s.inReset then .next s else match s.entry p with | none => .next s | some e => f e) := by
  cases s.entry p with
  | none => exact hasNext_ite (hasNext_next _) (hasNext_next _)
  | some e => exact hasNext_ite (hasNext_next _) (hf e)

theorem exec_hasNext (i : Instr) (s : State) : HasNext (exec i s) := by
  cases i
  case frameBegin | portClockEdge | timeTagAdvance | triggerTransition | fullResetEnd =>
    exact hasNext_ite (hasNext_next _) (hasNext_next _)
  case moveAdvance | settleExpiry | dwellExpiry | gapExpiry | fullReset => exact hasNext_next _
  case waitExpiry p => exact hasNext_atEntry s p fun _ => hasNext_ite (hasNext_next _) (hasNext_next _)
  case leaseExpiry p => exact hasNext_atEntry s p fun _ => hasNext_ite (hasNext_next _) (hasNext_next _)
  case offerLapse p =>
    refine hasNext_atEntry s p fun e => ?_
    cases e.state with
    | offered lease tag target time => exact hasNext_ite (hasNext_next _) (hasNext_next _)
    | pending wait expected => exact hasNext_next _
    | held lease tag => exact hasNext_next _
  all_goals exact atFrameEnd_hasNext ..

/-- No kind of change touches the queue. -/
theorem pending_kept (queue : List Instr) : StepKept (fun s => s.pending = queue) where
  port m q _ h := h
  append b h := h
  notices m f _ h := h
  reader m r _ _ h := h
  line l tl h := by cases l <;> exact h
  renewLeases m set h := h
  inPlace _ h := h
  ordered _ h := h
  granted _ _ _ h := h
  ackRevoke m h := h
  channel c u h := h
  freed _ _ h := h
  bar m h := h

/-- Settles O2: every command answers a next state, and every kind of change keeps the queue. -/
theorem queueAndIdling : Obligations.QueueAndIdling := by
  refine ⟨fun s hempty => ?idle, fun c s => ?total⟩
  case idle => rw [step, hempty]
  case total =>
    obtain ⟨t, ht⟩ := exec_hasNext c s
    exact ⟨t, ht, (pending_kept s.pending).exec_all (fun _ h => h) (fun _ _ h => h) (fun _ _ _ => rfl) rfl c t ht⟩

/-- Settles O1: `step` takes the front of the queue. -/
theorem stepRunsFrontCommand : Obligations.StepRunsFrontCommand := fun _ _ _ => rfl

end Sys2Proof.Machine
end

section
/-!
The search for a claim number (R6): the candidates from the next number on are distinct, so that eight of them cannot all be carried
while a position of the table is free.
-/

namespace Sys2Proof.Machine

/-- Claim numbers run through 1 to 255 in a circle. -/
theorem numberAfter_toNat {n : Byte} (hn : n ≠ 0) : (numberAfter n).toNat = n.toNat % 255 + 1 := by
  unfold numberAfter
  split
  · subst_vars; rfl
  · bv_omega

theorem numberAfter_ne_zero {n : Byte} (hn : n ≠ 0) : numberAfter n ≠ 0 := by
  have := numberAfter_toNat hn
  intro h
  rw [h] at this
  exact absurd this (by simp)

theorem numberAfter_iterate_ne_zero {n : Byte} (hn : n ≠ 0) (j : Nat) : numberAfter^[j] n ≠ 0 := by
  induction j with
  | zero => exact hn
  | succ j ih =>
    rw [Function.iterate_succ_apply']
    exact numberAfter_ne_zero ih

theorem numberAfter_iterate_toNat {n : Byte} (hn : n ≠ 0) (j : Nat) :
    (numberAfter^[j] n).toNat = (n.toNat - 1 + j) % 255 + 1 := by
  have hrange : n.toNat < 256 := n.isLt
  have hpos : 0 < n.toNat := Nat.pos_of_ne_zero fun h => hn (BitVec.eq_of_toNat_eq h)
  induction j with
  | zero => simp only [Function.iterate_zero, id]; omega
  | succ j ih =>
    rw [Function.iterate_succ_apply', numberAfter_toNat (numberAfter_iterate_ne_zero hn j), ih]
    omega

/-- Fewer than 255 candidates are distinct. -/
theorem numberAfter_iterate_inj {n : Byte} (hn : n ≠ 0) {i j : Nat} (hi : i < 8) (hj : j < 8)
    (h : numberAfter^[i] n = numberAfter^[j] n) : i = j := by
  have := congrArg BitVec.toNat h
  rw [numberAfter_iterate_toNat hn, numberAfter_iterate_toNat hn] at this
  omega

theorem ClaimTable.carries_iff {t : ClaimTable} {n : Byte} :
    t.carries n = true ↔ ∃ (p : Pos) (e : ClaimEntry), t.entries[p] = some e ∧ e.number = n := by
  constructor
  · intro h
    obtain ⟨⟨p, e⟩, hfind⟩ := Option.isSome_iff_exists.mp h
    exact ⟨p, e, ClaimTable.find_spec hfind⟩
  · rintro ⟨p, e, he, hn⟩
    unfold ClaimTable.carries ClaimTable.find
    rw [List.findSome?_isSome_iff]
    exact ⟨p, mem_allPositions p, by simp [he, hn]⟩

/-- While a position is free, one of eight candidates is carried by no entry: each carried one stands at a position of its own,
and none at the free one. -/
theorem exists_not_carried {t : ClaimTable} {p : Pos} (hp : t.entries[p] = none) {n : Byte} (hn : n ≠ 0) :
    ∃ j < 8, t.carries (numberAfter^[j] n) = false := by
  by_contra hall
  have hcarried : ∀ j : Fin 8, ∃ (q : Pos) (e : ClaimEntry), t.entries[q] = some e ∧ e.number = numberAfter^[j] n := by
    intro j
    refine ClaimTable.carries_iff.mp ?_
    by_contra h
    exact hall ⟨j, j.isLt, by simpa using h⟩
  choose position entry hentry hnumber using hcarried
  have hinj : Function.Injective position := by
    intro i j hij
    have hsame : entry i = entry j := Option.some.inj ((hentry i).symm.trans (hij ▸ hentry j))
    exact Fin.ext (numberAfter_iterate_inj hn i.isLt j.isLt ((hnumber i).symm.trans (hsame ▸ hnumber j)))
  obtain ⟨j, rfl⟩ := Finite.surjective_of_injective hinj p
  rw [hentry j] at hp
  cases hp

/-- The search stops at the first candidate that is not carried. -/
theorem ClaimTable.freeNumber_spec (t : ClaimTable) (k : Nat) (n : Byte)
    (h : ∃ j < k, t.carries (numberAfter^[j] n) = false) :
    ∃ j < k, t.freeNumber k n = numberAfter^[j] n ∧ t.carries (numberAfter^[j] n) = false ∧
      ∀ i < j, t.carries (numberAfter^[i] n) = true := by
  induction k generalizing n with
  | zero => exact absurd h (by simp)
  | succ k ih =>
    unfold ClaimTable.freeNumber
    cases hn : t.carries n with
    | false => exact ⟨0, Nat.succ_pos k, by simp [hn]⟩
    | true =>
      obtain ⟨j, hj, hfree⟩ := h
      have hpos : j ≠ 0 := by
        rintro rfl
        exact Bool.false_ne_true (hfree.symm.trans hn)
      obtain ⟨j, rfl⟩ := Nat.exists_eq_succ_of_ne_zero hpos
      obtain ⟨i, hi, hsearch, hfound, hbefore⟩ := ih (numberAfter n) ⟨j, Nat.lt_of_succ_lt_succ hj, hfree⟩
      refine ⟨i + 1, Nat.succ_lt_succ hi, by simpa using hsearch, hfound, fun l hl => ?_⟩
      cases l with
      | zero => exact hn
      | succ l => exact hbefore l (Nat.lt_of_succ_lt_succ hl)

/-- What a CLAIM finds of its number. -/
theorem ClaimTable.newNumber_spec {t : ClaimTable} (hnext : t.nextNumber ≠ 0) {p : Pos} (hp : t.entries[p] = none) :
    ∃ j < 8, t.newNumber = numberAfter^[j] t.nextNumber ∧ t.carries t.newNumber = false ∧
      ∀ i < j, t.carries (numberAfter^[i] t.nextNumber) = true := by
  obtain ⟨j, hj, hsearch, hfound, hbefore⟩ := t.freeNumber_spec 8 t.nextNumber (exists_not_carried hp hnext)
  exact ⟨j, hj, hsearch, (congrArg t.carries hsearch).trans hfound, hbefore⟩

theorem ClaimTable.not_carried {t : ClaimTable} {n : Byte} (h : t.carries n = false) {p : Pos} {e : ClaimEntry}
    (he : t.entries[p] = some e) : e.number ≠ n := fun hn =>
  Bool.false_ne_true (h.symm.trans (ClaimTable.carries_iff.mpr ⟨p, e, he, hn⟩))

/-- Settles O26: eight distinct candidates cannot all stand in a table with a free position. -/
theorem newClaimNumber : Obligations.NewClaimNumber := by
  rintro s hnext ⟨p, hp⟩
  obtain ⟨k, hk, hnumber, hfree, hbefore⟩ := ClaimTable.newNumber_spec hnext hp
  exact ⟨k, hk, hnumber, fun _ _ he => ClaimTable.not_carried hfree he, fun j hj => ClaimTable.carries_iff.mp (hbefore j hj)⟩

end Sys2Proof.Machine
end

section
/-!
The laws of the claim table (R1 to R6, R8, R31, R42, R46): every change of the table keeps them. But for a new claim, a change
leaves at each position what was there, changed in place, or nothing; and only a grant puts an entry in force.
-/

namespace Sys2Proof.Machine

/-! ## Sets and holders -/

/-- Two channel sets share no channel. -/
theorem disjoint_iff {a b : ChannelSet} :
    a &&& b = 0 ↔ ∀ c : Ch, a.getLsbD c.val = true → b.getLsbD c.val = false := by
  constructor
  · intro h c ha
    have hbit := congrArg (fun x : ChannelSet => x.getLsbD c.val) h
    simpa [ha] using hbit
  · intro h
    refine BitVec.eq_of_getLsbD_eq fun i hi => ?_
    rw [BitVec.getLsbD_and, show BitVec.getLsbD (0 : ChannelSet) i = false from BitVec.getLsbD_zero]
    cases ha : a.getLsbD i with
    | false => rfl
    | true => exact h ⟨i, hi⟩ ha

/-- Where no channel has two holders, the holder is the master of the entry in force that has the channel in its set (R3). -/
theorem HolderLaw.holder_eq {s : State} (h : HolderLaw s) {p : Pos} {e : ClaimEntry} {c : Ch} (he : s.entry p = some e)
    (hforce : e.inForce = true) (hc : e.set.getLsbD c.val = true) : s.holder c = some e.master := by
  cases hholding : s.claims.holding c with
  | none =>
    have hnone : s.holder c = none := congrArg (Option.map ClaimEntry.master) hholding
    exact absurd hc (Bool.eq_false_iff.mp (State.holder_eq_none.mp hnone p e he hforce))
  | some f =>
    obtain ⟨q, hf, hfforce, hfc⟩ := ClaimTable.holding_spec hholding
    have hsome : s.holder c = some f.master := congrArg (Option.map ClaimEntry.master) hholding
    have hpq : p = q := by
      by_contra hne
      exact absurd hfc (Bool.eq_false_iff.mp (disjoint_iff.mp (h p q e f he hf hforce hfforce hne) c hc))
    subst hpq
    obtain rfl : e = f := Option.some.inj (he.symm.trans hf)
    exact hsome

theorem ClaimEntry.isPending_iff {e : ClaimEntry} : e.isPending = true ↔ e.inForce = false := by
  simp [ClaimEntry.isPending]

theorem ClaimEntry.not_pending_of_inForce {e : ClaimEntry} (h : e.inForce = true) : ¬ e.isPending = true := by
  simp [ClaimEntry.isPending, h]

/-- A set of free channels meets no entry in force. -/
theorem State.disjoint_of_allFree {s : State} {set : ChannelSet} (h : s.allFree set = true) {p : Pos} {e : ClaimEntry}
    (he : s.entry p = some e) (hforce : e.inForce = true) : set &&& e.set = 0 :=
  disjoint_iff.mpr fun c hc => State.holder_eq_none.mp (State.allFree_iff.mp h c hc) p e he hforce

/-! ## The entries after a change -/

theorem State.setEntry_entry (s : State) (p q : Pos) (x : Option ClaimEntry) :
    (s.claims.setEntry p x).entries[q] = if q = p then x else s.entry q := by
  split
  · subst_vars
    exact ClaimTable.setEntry_same ..
  · exact ClaimTable.setEntry_other _ _ ‹_›

theorem State.remove_entry (s : State) (p q : Pos) :
    (s.claims.remove p).entries[q] = if q = p then none else s.entry q := s.setEntry_entry p q none

theorem State.setClaims_entry (s : State) (t : ClaimTable) (q : Pos) : (s.setClaims t).entry q = t.entries[q] := rfl

/-- How an entry of a lawful table may be changed in place: the claim stays the same one, an entry in force was so before or is
granted at `p`, and a new holder waits for none of its channels. -/
structure EntryStep (s : State) (p q : Pos) (e f : ClaimEntry) : Prop where
  number : f.number = e.number
  set : f.set = e.set
  lawful : e.lawful → f.lawful
  pending : f.isPending = true → e.isPending = true ∧ f.master = e.master
  inForce : f.inForce = true →
    e.inForce = true ∧
        (f.master = e.master ∨
          ∀ r g, s.entry r = some g → g.isPending = true → g.master = f.master → g.set &&& e.set = 0) ∨
      q = p ∧ e.isPending = true ∧ f.master = e.master ∧ s.allFree e.set = true

theorem EntryStep.refl (s : State) (p q : Pos) (e : ClaimEntry) : EntryStep s p q e e where
  number := rfl
  set := rfl
  lawful := id
  pending h := ⟨h, rfl⟩
  inForce h := .inl ⟨h, .inl rfl⟩

/-- The pending order lists the PENDING entries of the table, each once. -/
def ClaimTable.OrderLists (t : ClaimTable) : Prop :=
  t.order.Nodup ∧ ∀ p, p ∈ t.order ↔ ∃ e : ClaimEntry, t.entries[p] = some e ∧ e.isPending = true

section
variable {s : State}

/-- A table whose entries are those of a lawful one, each changed in place or removed, is lawful. -/
theorem ClaimTableLaw.of_steps (h : ClaimTableLaw s) {t : ClaimTable} (p : Pos)
    (hsteps : ∀ (q : Pos) (f : ClaimEntry), t.entries[q] = some f → ∃ e, s.entry q = some e ∧ EntryStep s p q e f)
    (horder : t.OrderLists) (hnext : t.nextNumber = s.claims.nextNumber) : ClaimTableLaw (s.setClaims t) := by
  obtain ⟨⟨hnumber0, hnonzero, hdistinct⟩, hholder, ⟨-, -, hone⟩, hentry, hwaiting⟩ := h
  refine ⟨⟨hnext ▸ hnumber0, fun q f hf => ?nonzero, fun q r f g hf hg hfg => ?distinct⟩,
    fun q r f g hf hg hff hgf hne => ?holder, ⟨horder.1, horder.2, fun q r f g hf hg hfp hgp hfg => ?one⟩,
    fun q f hf => ?lawful, fun q r f g hf hg hfp hgf hfg => ?waiting⟩
  all_goals obtain ⟨e, he, hstep⟩ := hsteps q f hf
  case nonzero => exact hstep.number ▸ hnonzero q e he
  case lawful => exact hstep.lawful (hentry q e he)
  all_goals obtain ⟨d, hd, hstep'⟩ := hsteps r g hg
  case distinct => exact hdistinct q r e d he hd (hstep.number.symm.trans (hfg.trans hstep'.number))
  case one =>
    obtain ⟨hep, hem⟩ := hstep.pending hfp
    obtain ⟨hdp, hdm⟩ := hstep'.pending hgp
    exact hone q r e d he hd hep hdp (hem.symm.trans (hfg.trans hdm))
  case holder =>
    rw [hstep.set, hstep'.set]
    rcases hstep.inForce hff with ⟨hef, -⟩ | ⟨rfl, hep, -, hfree⟩
    · rcases hstep'.inForce hgf with ⟨hdf, -⟩ | ⟨rfl, hdp, -, hfree⟩
      · exact hholder q r e d he hd hef hdf hne
      · rw [BitVec.and_comm]
        exact State.disjoint_of_allFree hfree he hef
    · rcases hstep'.inForce hgf with ⟨hdf, -⟩ | ⟨rfl, hdp, -, -⟩
      · exact State.disjoint_of_allFree hfree hd hdf
      · exact absurd rfl hne
  case waiting =>
    rw [hstep.set, hstep'.set]
    obtain ⟨hep, hem⟩ := hstep.pending hfp
    rcases hstep'.inForce hgf with ⟨hdf, hsame | hclear⟩ | ⟨rfl, hdp, hdm, -⟩
    · exact hwaiting q r e d he hd hep hdf (hem.symm.trans (hfg.trans hsame))
    · exact hclear q e he hep (hem.symm.trans hfg)
    · obtain rfl := hone q r e d he hd hep hdp (hem.symm.trans (hfg.trans hdm))
      obtain rfl : f = g := Option.some.inj (hf.symm.trans hg)
      exact absurd hfp (ClaimEntry.not_pending_of_inForce hgf)

theorem ClaimTableLaw.orderLists (h : ClaimTableLaw s) : s.claims.OrderLists := ⟨h.2.2.1.1, h.2.2.1.2.1⟩

/-- An entry changed in place that stays PENDING or stays in force. -/
theorem ClaimTableLaw.replace (h : ClaimTableLaw s) {p : Pos} {e f : ClaimEntry} (he : s.entry p = some e)
    (hstep : EntryStep s p p e f) (hforce : f.inForce = e.inForce) :
    ClaimTableLaw (s.setClaims (s.claims.setEntry p (some f))) := by
  refine h.of_steps p (fun q g hg => ?_) ⟨h.orderLists.1, fun q => ?_⟩ rfl
  · rw [State.setEntry_entry] at hg
    split at hg
    · cases hg
      subst_vars
      exact ⟨e, he, hstep⟩
    · exact ⟨g, hg, .refl ..⟩
  · refine (h.orderLists.2 q).trans ?_
    rw [State.setEntry_entry]
    split
    · subst_vars
      have hpending : f.isPending = e.isPending := by rw [ClaimEntry.isPending, hforce, ClaimEntry.isPending]
      have he' : s.claims.entries[q] = some e := he
      simp [he', hpending]
    · exact Iff.rfl

/-- A change that takes the entry at `p` out of the pending order, if it was there, and leaves no PENDING entry at `p`. -/
theorem ClaimTableLaw.dequeue_orderLists (h : ClaimTableLaw s) {p : Pos} {x : Option ClaimEntry}
    (hx : ∀ f, x = some f → f.inForce = true) : ((s.claims.setEntry p x).dequeue p).OrderLists := by
  refine ⟨h.orderLists.1.filter _, fun q => ?_⟩
  rw [ClaimTable.dequeue_entries, State.setEntry_entry]
  show q ∈ s.claims.order.filter _ ↔ _
  rw [List.mem_filter, h.orderLists.2 q]
  split
  · subst_vars
    refine iff_of_false (by simp) ?_
    rintro ⟨f, hf, hpending⟩
    exact ClaimEntry.not_pending_of_inForce (hx f hf) hpending
  · simp [State.entry, ‹¬ q = p›]

theorem ClaimTableLaw.remove (h : ClaimTableLaw s) (p : Pos) : ClaimTableLaw (s.setClaims (s.claims.remove p)) := by
  refine h.of_steps p (fun q f hf => ?_) (h.dequeue_orderLists nofun) rfl
  rw [State.remove_entry] at hf
  split at hf
  · cases hf
  · exact ⟨f, hf, .refl ..⟩

theorem ClaimTableLaw.grantEntry (h : ClaimTableLaw s) {p : Pos} {e : ClaimEntry} (he : s.entry p = some e)
    (hpending : e.isPending = true) (hgrantable : s.grantable p e = true) :
    ClaimTableLaw (s.setClaims (s.grantedTable p e)) := by
  have hfree : s.allFree e.set = true := (Bool.and_eq_true_iff.mp hgrantable).1
  refine h.of_steps p (fun q f hf => ?_) (h.dequeue_orderLists fun f hf => by cases hf; rfl) rfl
  rw [State.grantedTable, ClaimTable.dequeue_entries, State.setEntry_entry] at hf
  split at hf
  · cases hf
    subst_vars
    exact ⟨e, he, { number := rfl, set := rfl, lawful := fun hl => ⟨hl.1, hl.2.1, BitVec.le_refl e.leasePeriod⟩, pending := nofun
                    inForce := fun _ => .inr ⟨rfl, hpending, rfl, hfree⟩ }⟩
  · exact ⟨f, hf, .refl ..⟩

/-! ## A new claim (R6, R9) -/

/-- The entry that a CLAIM makes is lawful among the others, and stands at the tail of the order. -/
theorem ClaimTableLaw.create (h : ClaimTableLaw s) {p : Pos} {e : ClaimEntry} (hfree : s.entry p = none)
    (hnumber : e.number = s.claims.newNumber) (hpending : e.isPending = true)
    (hwaits : s.claims.hasPending e.master = false) (hlawful : e.lawful)
    (hoverlap : ∀ c : Ch, e.set.getLsbD c.val = true → s.holder c ≠ some e.master) :
    ClaimTableLaw (s.setClaims (s.claims.create p e)) := by
  obtain ⟨⟨hnext, hnonzero, hdistinct⟩, hholder, ⟨hnodup, horder, hone⟩, hentry, hwaiting⟩ := h
  obtain ⟨j, -, hnew, hcarried, -⟩ := ClaimTable.newNumber_spec hnext hfree
  have hnew0 : s.claims.newNumber ≠ 0 := hnew ▸ numberAfter_iterate_ne_zero hnext j
  have hnotin : p ∉ s.claims.order := fun hp => by
    obtain ⟨f, hf, -⟩ := (horder p).mp hp
    rw [hfree] at hf
    cases hf
  have hothers : ∀ q f, s.entry q = some f → f.isPending = true → f.master ≠ e.master := fun q f hf hfp hm =>
    Bool.false_ne_true (hwaits.symm.trans (ClaimTable.hasPending_iff.mpr ⟨q, f, hf, hfp, hm⟩))
  have hcases : ∀ {q : Pos} {f : ClaimEntry}, (s.setClaims (s.claims.create p e)).entry q = some f →
      q = p ∧ f = e ∨ q ≠ p ∧ s.entry q = some f := by
    intro q f hf
    have hq : (s.setClaims (s.claims.create p e)).entry q = if q = p then some e else s.entry q :=
      s.setEntry_entry p q (some e)
    rw [hq] at hf
    split at hf
    · exact .inl ⟨‹_›, (Option.some.inj hf).symm⟩
    · exact .inr ⟨‹_›, hf⟩
  refine ⟨⟨numberAfter_ne_zero (hnumber ▸ hnew0), fun q f hf => ?nonzero, fun q r f g hf hg hfg => ?distinct⟩,
    fun q r f g hf hg hff hgf hne => ?holder, ⟨?nodup, fun q => ?mem, fun q r f g hf hg hfp hgp hfg => ?one⟩,
    fun q f hf => ?lawful, fun q r f g hf hg hfp hgf hfg => ?waiting⟩
  case nodup =>
    exact hnodup.append (List.nodup_singleton p) (List.disjoint_singleton.mpr hnotin)
  case mem =>
    have hq : (s.setClaims (s.claims.create p e)).entry q = if q = p then some e else s.entry q :=
      s.setEntry_entry p q (some e)
    show q ∈ s.claims.order ++ [p] ↔ _
    rw [hq, List.mem_append, List.mem_singleton, horder]
    split
    · exact iff_of_true (.inr ‹_›) ⟨e, rfl, hpending⟩
    · exact or_iff_left ‹_›
  all_goals rcases hcases hf with ⟨rfl, rfl⟩ | ⟨hqp, hf'⟩
  case nonzero.inl => exact hnumber ▸ hnew0
  case nonzero.inr => exact hnonzero q f hf'
  case lawful.inl => exact hlawful
  case lawful.inr => exact hentry q f hf'
  all_goals rcases hcases hg with ⟨rfl, rfl⟩ | ⟨hrp, hg'⟩
  case distinct.inl.inl => rfl
  case distinct.inl.inr => exact absurd (hfg.symm.trans hnumber) (ClaimTable.not_carried hcarried hg')
  case distinct.inr.inl => exact absurd (hfg.trans hnumber) (ClaimTable.not_carried hcarried hf')
  case distinct.inr.inr => exact hdistinct q r f g hf' hg' hfg
  case holder.inl.inl | holder.inl.inr => exact absurd hpending (ClaimEntry.not_pending_of_inForce hff)
  case holder.inr.inl => exact absurd hpending (ClaimEntry.not_pending_of_inForce hgf)
  case holder.inr.inr => exact hholder q r f g hf' hg' hff hgf hne
  case one.inl.inl => rfl
  case one.inl.inr => exact absurd hfg.symm (hothers r g hg' hgp)
  case one.inr.inl => exact absurd hfg (hothers q f hf' hfp)
  case one.inr.inr => exact hone q r f g hf' hg' hfp hgp hfg
  case waiting.inl.inl | waiting.inr.inl => exact absurd hpending (ClaimEntry.not_pending_of_inForce hgf)
  case waiting.inl.inr =>
    refine disjoint_iff.mpr fun c hc => ?_
    by_contra hgc
    exact hoverlap c hc ((hholder.holder_eq hg' hgf (by simpa using hgc)).trans (congrArg some hfg.symm))
  case waiting.inr.inr => exact hwaiting q r f g hf' hg' hfp hgf hfg

/-! ## Entries changed in place -/

/-- An entry whose timers alone are changed, within the ranges of R2. -/
structure SameClaim (e f : ClaimEntry) : Prop where
  number : f.number = e.number
  master : f.master = e.master
  set : f.set = e.set
  inForce : f.inForce = e.inForce
  lawful : e.lawful → f.lawful

theorem SameClaim.isPending {e f : ClaimEntry} (h : SameClaim e f) : f.isPending = e.isPending := by
  rw [ClaimEntry.isPending, h.inForce, ClaimEntry.isPending]

theorem SameClaim.entryStep {e f : ClaimEntry} (h : SameClaim e f) (p q : Pos) : EntryStep s p q e f where
  number := h.number
  set := h.set
  lawful := h.lawful
  pending hf := ⟨h.isPending ▸ hf, h.master⟩
  inForce hf := .inl ⟨h.inForce ▸ hf, .inl h.master⟩

theorem ClaimEntry.renew_same (e : ClaimEntry) : SameClaim e e.renew := by
  obtain ⟨hnumber, hmaster, hset, hperiod, hforce⟩ := e.renew_fields
  refine ⟨hnumber, hmaster, hset, hforce, ?_⟩
  rcases e with ⟨n, m, set, period, _ | _ | _⟩
  · exact id
  · exact fun ⟨h0, h10, _⟩ => ⟨h0, h10, BitVec.le_refl period⟩
  · exact fun ⟨h0, h10, _, htarget⟩ => ⟨h0, h10, BitVec.le_refl period, htarget⟩

theorem ClaimEntry.renewFor_same (m : Master) (set : ChannelSet) (e : ClaimEntry) : SameClaim e (e.renewFor m set) := by
  unfold ClaimEntry.renewFor
  split
  · exact e.renew_same
  · exact ⟨rfl, rfl, rfl, rfl, id⟩

theorem countDown_le (w : Word16) : countDown w ≤ w := by
  unfold countDown
  split <;> bv_omega

theorem ClaimEntry.tick_same (e : ClaimEntry) : SameClaim e e.tick := by
  rcases e with ⟨n, m, set, period, ⟨wait, expected⟩ | _ | _⟩
  · refine ⟨rfl, rfl, rfl, rfl, fun ⟨h0, h10, hwait⟩ => ⟨h0, h10, ?_⟩⟩
    cases wait with
    | none => trivial
    | some w => exact ⟨hwait.1, BitVec.le_trans (countDown_le _) hwait.2⟩
  · exact ⟨rfl, rfl, rfl, rfl, fun ⟨h0, h10, hlease⟩ => ⟨h0, h10, BitVec.le_trans (countDown_le _) hlease⟩⟩
  · exact ⟨rfl, rfl, rfl, rfl,
      fun ⟨h0, h10, hlease, htarget⟩ => ⟨h0, h10, BitVec.le_trans (countDown_le _) hlease, htarget⟩⟩

/-- Every entry changed in its timers at once. -/
theorem ClaimTableLaw.mapEntries (h : ClaimTableLaw s) {f : ClaimEntry → ClaimEntry} (hf : ∀ e, SameClaim e (f e)) :
    ClaimTableLaw (s.setClaims { s.claims with entries := mapVector (Option.map f) s.claims.entries }) := by
  have hentry : ∀ q : Pos, (mapVector (Option.map f) s.claims.entries)[q] = (s.entry q).map f :=
    fun q => mapVector_get _ _ q
  refine h.of_steps 0 (fun q g hg => ?_) ⟨h.orderLists.1, fun q => ?_⟩ rfl
  · rw [hentry] at hg
    obtain ⟨e, he, rfl⟩ := Option.map_eq_some_iff.mp hg
    exact ⟨e, he, (hf e).entryStep 0 q⟩
  · refine (h.orderLists.2 q).trans ?_
    rw [hentry]
    simp [State.entry, (hf _).isPending]

/-- An OFFERED or HELD entry that stays in force with its holder. -/
theorem EntryStep.of_held {p : Pos} {e f : ClaimEntry} (hforce : e.inForce = true) (hf : f.inForce = true)
    (hnumber : f.number = e.number) (hset : f.set = e.set) (hmaster : f.master = e.master)
    (hlawful : e.lawful → f.lawful) : EntryStep s p p e f :=
  SameClaim.entryStep ⟨hnumber, hmaster, hset, hf.trans hforce.symm, hlawful⟩ p p

theorem ClaimTableLaw.ordered (h : ClaimTableLaw s) {t : ClaimTable} (hc : OrderChange s t) :
    ClaimTableLaw (s.setClaims t) := by
  cases hc
  case created m set lease wait expected hfree hwaits hoverlap hset hlease hwait =>
    refine h.create hfree rfl rfl hwaits ⟨hset, hlease, ?_⟩ hoverlap
    cases wait with
    | none => trivial
    | some w => exact ⟨(hwait w rfl).1, BitVec.le_of_eq (hwait w rfl).2⟩
  case dropped he hpending => exact h.remove _

theorem ClaimTableLaw.inPlace (h : ClaimTableLaw s) {t : ClaimTable} (hc : InPlaceChange s t) :
    ClaimTableLaw (s.setClaims t) := by
  cases hc
  case renewed e he => exact h.replace he (e.renew_same.entryStep _ _) e.renew_same.inForce
  case offered e lease tag target time he hstate htarget =>
    have hforce : e.inForce = true := by simp [ClaimEntry.inForce, hstate]
    exact h.replace he (.of_held hforce rfl rfl rfl rfl fun hl => ⟨hl.1, hl.2.1, BitVec.le_refl _, htarget⟩) hforce.symm
  case unoffered e old lease tag target time he hstate hlease =>
    have hforce : e.inForce = true := by simp [ClaimEntry.inForce, hstate]
    refine h.replace he (.of_held hforce rfl rfl rfl rfl fun ⟨h0, h10, hl⟩ => ⟨h0, h10, ?_⟩) hforce.symm
    rw [hstate] at hl
    rcases hlease with rfl | rfl
    · exact hl.1
    · exact BitVec.le_refl _
  case passed e old tag time m lease he hstate hwaits hlease =>
    have hforce : e.inForce = true := by simp [ClaimEntry.inForce, hstate]
    have hclear : ∀ r g, s.entry r = some g → g.isPending = true → g.master = m → g.set &&& e.set = 0 := by
      intro r g hg hgp hgm
      by_contra hne
      exact Bool.false_ne_true (hwaits.symm.trans (ClaimTable.waitsOn_iff.mpr ⟨r, g, hg, hgp, hgm, hne⟩))
    exact h.replace he { number := rfl, set := rfl, lawful := fun hl => ⟨hl.1, hlease, BitVec.le_refl _⟩, pending := nofun
                         inForce := fun _ => .inl ⟨hforce, .inr hclear⟩ } hforce.symm

/-! ## Every step -/

theorem ClaimTableLaw.of_claims_eq (h : ClaimTableLaw s) {t : State} (e : t.claims = s.claims) : ClaimTableLaw t := by
  unfold ClaimTableLaw NumberLaw HolderLaw OrderLaw EntryLaw WaitingLaw State.entry
  rw [e]
  exact h

/-- A table with no entry is lawful. -/
theorem ClaimTableLaw.of_empty (hentry : ∀ p, s.entry p = none) (horder : s.claims.order = [])
    (hnext : s.claims.nextNumber ≠ 0) : ClaimTableLaw s := by
  have hno : ∀ {p : Pos} {e : ClaimEntry}, s.entry p ≠ some e := fun {p e} h => by
    rw [hentry p] at h
    cases h
  refine ⟨⟨hnext, fun _ _ he => absurd he hno, fun _ _ _ _ he => absurd he hno⟩, fun _ _ _ _ he => absurd he hno,
    ⟨horder ▸ List.nodup_nil, fun p => iff_of_false (by simp [horder]) fun ⟨_, he, _⟩ => hno he,
      fun _ _ _ _ he => absurd he hno⟩, fun _ _ he => absurd he hno, fun _ _ _ _ he => absurd he hno⟩

end

theorem claimTableLaw_kept : StepKept ClaimTableLaw where
  port m q _ h := h
  append b h := h
  notices m f _ h := h
  reader m r _ _ h := h
  line l tl h := by cases l <;> exact h
  renewLeases m set h := h.mapEntries (ClaimEntry.renewFor_same m set)
  inPlace hc h := h.inPlace hc
  ordered hc h := h.ordered hc
  granted he hpending hgrantable h := h.grantEntry he hpending hgrantable
  ackRevoke m h := h
  channel c u h := h
  freed _ _ h := h.remove _
  bar m h := h

theorem replicate_getElem_none (p : Pos) : (Vector.replicate 8 (none : Option ClaimEntry))[p] = none := by simp

theorem ClaimTableLaw.softReset {s : State} (h : ClaimTableLaw s) (m : Master) : ClaimTableLaw (s.softReset m) :=
  .of_empty replicate_getElem_none rfl h.1.1

theorem fullResetState_claimTableLaw (pending : List Instr) (inReset : Bool) (level0 level1 : Level) :
    ClaimTableLaw (fullResetState pending inReset level0 level1) :=
  .of_empty replicate_getElem_none rfl (show (1 : Byte) ≠ 0 by decide)

theorem ClaimTableLaw.millisecond {s : State} (h : ClaimTableLaw s) : ClaimTableLaw s.millisecond :=
  (h.mapEntries ClaimEntry.tick_same).of_claims_eq rfl

/-- Settles O53: every change of the claim table keeps its laws, a new claim by its checks and its number, a grant by its channels
being free. -/
theorem claimTableLawKept : Obligations.ClaimTableLawKept := fun _ _ hs hstep =>
  step_keeps hs (fun _ h => h)
    (fun i _ h => claimTableLaw_kept.exec_all (fun m ht => ht.softReset m) (fun _ _ ht => ht.millisecond)
      (fullResetState_claimTableLaw _) h i) hstep

end Sys2Proof.Machine
end

section
/-!
Grant evaluation leaves no waiting claim grantable (R11, R12): one walk is enough, since a visit leaves alone every older claim that
still waits, and no other change of the part frees a channel or the order.
-/

namespace Sys2Proof.Machine

/-! ## What grant evaluation looks at -/

/-- The channels of an entry, and whether it holds them. -/
def ClaimEntry.shape (e : ClaimEntry) : ChannelSet × Bool := (e.set, e.inForce)

/-- The same claims wait in the same order, and the same are in force. -/
def SameShape (s t : State) : Prop :=
  t.claims.order = s.claims.order ∧ ∀ p, (t.entry p).map ClaimEntry.shape = (s.entry p).map ClaimEntry.shape

section
variable {s t : State}

/-- The entry of the one state at a position, where the other has one. -/
theorem SameShape.entry (h : SameShape s t) {p : Pos} {e : ClaimEntry} (he : s.entry p = some e) :
    ∃ f, t.entry p = some f ∧ f.set = e.set ∧ f.inForce = e.inForce := by
  have hp := h.2 p
  rw [he] at hp
  obtain ⟨f, hf, hshape⟩ := Option.map_eq_some_iff.mp hp
  exact ⟨f, hf, Prod.mk.inj hshape⟩

theorem SameShape.symm (h : SameShape s t) : SameShape t s := ⟨h.1.symm, fun p => (h.2 p).symm⟩

/-- No claim in force of the first state has gone in the second. -/
def KeepsClaims (s t : State) : Prop :=
  ∀ p e, s.entry p = some e → e.inForce = true → ∃ f, t.entry p = some f ∧ f.set = e.set ∧ f.inForce = true

theorem KeepsClaims.holder (h : KeepsClaims s t) {c : Ch} (hc : t.holder c = none) : s.holder c = none := by
  rw [State.holder_eq_none] at hc ⊢
  intro p e he hforce
  obtain ⟨f, hf, hset, hfforce⟩ := h p e he hforce
  exact hset ▸ hc p f hf hfforce

theorem SameShape.keepsClaims (h : SameShape s t) : KeepsClaims s t := fun _ _ he hforce =>
  have ⟨f, hf, hset, hfforce⟩ := h.entry he
  ⟨f, hf, hset, hfforce.trans hforce⟩

theorem NoneGrantable.of_sameShape (h : NoneGrantable s) (hst : SameShape s t) : NoneGrantable t := by
  intro p f hp hf
  obtain ⟨e, he, hset, -⟩ := hst.symm.entry hf
  have hblocked := h p e (hst.1 ▸ hp) he
  by_contra hgrantable
  rw [Bool.not_eq_false, State.grantable_iff] at hgrantable
  obtain ⟨hfree, hfirst⟩ := hgrantable
  refine Bool.false_ne_true (hblocked.symm.trans (State.grantable_iff.mpr ⟨fun c hc => ?_, fun q g hq hg => ?_⟩))
  · exact hst.keepsClaims.holder (hfree c (hset ▸ hc))
  · obtain ⟨g', hg', hgset, -⟩ := hst.entry hg
    rw [hset, ← hgset]
    exact hfirst q g' (hst.1.symm ▸ hq) hg'

/-! ## One walk is enough -/

/-- One visit of a PENDING entry (R12 to R14). -/
theorem State.visit_pending {p : Pos} {e : ClaimEntry} {wait : Option WaitTimer} {expected : Option Word16}
    (he : s.entry p = some e) (hstate : e.state = .pending wait expected) :
    s.visit p =
      if s.grantable p e then
        if s.digestDiffers e.set expected then s.refuseClaim p e .digest else s.grant p e
      else s := by
  unfold State.visit
  rw [he]
  dsimp only
  rw [hstate]

theorem ClaimEntry.exists_of_isPending {e : ClaimEntry} (h : e.isPending = true) :
    ∃ wait expected, e.state = .pending wait expected := by
  rcases e with ⟨n, m, set, period, ⟨wait, expected⟩ | _ | _⟩
  · exact ⟨wait, expected, rfl⟩
  · exact absurd h nofun
  · exact absurd h nofun

/-- A PENDING entry taken out of the order, as a refusal and a grant leave it. -/
def TakenOut (p : Pos) (s t : State) : Prop :=
  ∃ x : Option ClaimEntry, t.claims = (s.claims.setEntry p x).dequeue p

/-- What one visit of a PENDING entry can be. -/
theorem State.visit_of_pending {p : Pos} {e : ClaimEntry} (he : s.entry p = some e) (hpending : e.isPending = true) :
    s.grantable p e = false ∧ s.visit p = s ∨ TakenOut p s (s.visit p) := by
  obtain ⟨wait, expected, hstate⟩ := ClaimEntry.exists_of_isPending hpending
  rw [State.visit_pending he hstate]
  cases s.grantable p e with
  | false => exact .inl ⟨rfl, rfl⟩
  | true =>
    refine .inr ?_
    rw [if_pos rfl]
    split
    · exact ⟨none, rfl⟩
    · exact ⟨some _, rfl⟩

theorem TakenOut.entry_other {p q : Pos} (h : TakenOut p s t) (hq : q ≠ p) : t.entry q = s.entry q := by
  obtain ⟨x, hx⟩ := h
  rw [State.entry, hx, ClaimTable.dequeue_entries, State.setEntry_entry, if_neg hq]

theorem TakenOut.keepsClaims {p : Pos} (h : TakenOut p s t) {e : ClaimEntry} (he : s.entry p = some e)
    (hpending : e.isPending = true) : KeepsClaims s t := by
  intro q f hf hforce
  have hq : q ≠ p := by
    rintro rfl
    obtain rfl : e = f := Option.some.inj (he.symm.trans hf)
    exact ClaimEntry.not_pending_of_inForce hforce hpending
  exact ⟨f, (h.entry_other hq).trans hf, rfl, hforce⟩

/-- In an order without repetition, taking out a position leaves what stands before it and after it. -/
theorem TakenOut.order {p : Pos} (h : TakenOut p s t) {before after : List Pos}
    (horder : s.claims.order = before ++ p :: after) (hnodup : s.claims.order.Nodup) :
    t.claims.order = before ++ after := by
  obtain ⟨x, hx⟩ := h
  rw [horder] at hnodup
  have hbefore : p ∉ before := fun hp => List.disjoint_of_nodup_append hnodup hp List.mem_cons_self
  have hafter : p ∉ after := (List.nodup_cons.mp hnodup.of_append_right).1
  have hfilter : ∀ l : List Pos, p ∉ l → l.filter (fun q => q ≠ p) = l := fun l hl =>
    List.filter_eq_self.mpr fun q hq => decide_eq_true fun e => hl (e ▸ hq)
  rw [hx]
  show s.claims.order.filter (fun q => q ≠ p) = before ++ after
  rw [horder, List.filter_append, List.filter_cons, hfilter before hbefore, hfilter after hafter]
  simp

/-- The positions older than one of the first part are all in that part. -/
theorem takeWhile_ne_append {q : Pos} {before : List Pos} (h : q ∈ before) (after : List Pos) :
    (before ++ after).takeWhile (fun r => r ≠ q) = before.takeWhile (fun r => r ≠ q) := by
  induction before with
  | nil => cases h
  | cons r rest ih =>
    by_cases hr : r = q
    · simp [hr]
    · simp only [List.cons_append, List.takeWhile_cons, hr, ne_eq, not_false_eq_true, decide_true, if_true]
      rw [← ih ((List.mem_cons.mp h).resolve_left (Ne.symm hr))]

/-- None of the waiting claims at these positions is grantable. -/
def NoneGrantableOf (ps : List Pos) (s : State) : Prop := ∀ q e, q ∈ ps → s.entry q = some e → s.grantable q e = false

/-- A claim that still waits is not made grantable by the visit of a younger one. -/
theorem TakenOut.noneGrantableOf {p : Pos} (h : TakenOut p s t) {e : ClaimEntry} (he : s.entry p = some e)
    (hpending : e.isPending = true) {before after : List Pos} (horder : s.claims.order = before ++ p :: after)
    (hnodup : s.claims.order.Nodup) (hs : NoneGrantableOf before s) : NoneGrantableOf before t := by
  have hother : ∀ q ∈ before, q ≠ p := by
    rintro q hq rfl
    exact List.disjoint_of_nodup_append (horder ▸ hnodup) hq List.mem_cons_self
  have hentry : ∀ q ∈ before, t.entry q = s.entry q := fun q hq => h.entry_other (hother q hq)
  intro q f hq hf
  rw [hentry q hq] at hf
  have hblocked := hs q f hq hf
  by_contra hgrantable
  rw [Bool.not_eq_false, State.grantable_iff, h.order horder hnodup, takeWhile_ne_append hq] at hgrantable
  obtain ⟨hfree, hfirst⟩ := hgrantable
  refine Bool.false_ne_true (hblocked.symm.trans (State.grantable_iff.mpr
    ⟨fun c hc => (h.keepsClaims he hpending).holder (hfree c hc), fun r g hr hg => ?_⟩))
  rw [horder, takeWhile_ne_append hq] at hr
  exact hfirst r g hr ((hentry r ((List.takeWhile_subset _) hr)).trans hg)

theorem ClaimTableLaw.visit (h : ClaimTableLaw s) (p : Pos) : ClaimTableLaw (s.visit p) := by
  rcases s.visit_cases p with e | ⟨e, he, hpending, hgrantable, e' | e'⟩
  · rw [e]
    exact h
  · rw [e']
    exact claimTableLaw_kept.toQuiet.refusal (h.remove p) e .digest
  · rw [e']
    exact claimTableLaw_kept.toQuiet.grant (h.grantEntry he hpending hgrantable)

/-- The walk over what is still to be visited, when none of those visited that still wait is grantable. -/
theorem walk_noneGrantable (rest : List Pos) {before : List Pos} (h : ClaimTableLaw s)
    (horder : s.claims.order = before ++ rest) (hbefore : NoneGrantableOf before s) :
    NoneGrantable (rest.foldl State.visit s) := by
  induction rest generalizing s before with
  | nil =>
    intro p e hp he
    rw [List.foldl_nil] at hp he ⊢
    exact hbefore p e (by simpa [horder] using hp) he
  | cons p rest ih =>
    obtain ⟨hnodup, hmem⟩ := h.orderLists
    obtain ⟨e, he, hpending⟩ := (hmem p).mp (by simp [horder])
    rw [List.foldl_cons]
    rcases State.visit_of_pending he hpending with ⟨hblocked, hvisit⟩ | htaken
    · rw [hvisit]
      refine ih (before := before ++ [p]) h (by simp [horder]) fun q f hq hf => ?_
      rcases List.mem_append.mp hq with hq | hq
      · exact hbefore q f hq hf
      · obtain rfl := List.mem_singleton.mp hq
        obtain rfl : e = f := Option.some.inj (he.symm.trans hf)
        exact hblocked
    · exact ih (h.visit p) (htaken.order horder hnodup)
        (htaken.noneGrantableOf he hpending horder hnodup hbefore)

/-- Grant evaluation leaves no waiting claim grantable. -/
theorem ClaimTableLaw.grantEvaluation_noneGrantable (h : ClaimTableLaw s) : NoneGrantable s.grantEvaluation :=
  walk_noneGrantable s.claims.order (before := []) h rfl (fun _ _ hq => absurd hq List.not_mem_nil)

/-! ## The other changes -/

/-- A change of the table that keeps each entry's channels, and its being in force, and the order. -/
theorem sameShape_setEntry {p : Pos} {e f : ClaimEntry} (he : s.entry p = some e) (hset : f.set = e.set)
    (hforce : f.inForce = e.inForce) : SameShape s (s.setClaims (s.claims.setEntry p (some f))) := by
  refine ⟨rfl, fun q => ?_⟩
  rw [State.setClaims_entry, State.setEntry_entry]
  split
  · subst_vars
    rw [he]
    simp [ClaimEntry.shape, hset, hforce]
  · rfl

theorem InPlaceChange.sameShape {u : ClaimTable} (h : InPlaceChange s u) : SameShape s (s.setClaims u) := by
  cases h
  case renewed e he => exact sameShape_setEntry he e.renew_same.set e.renew_same.inForce
  case offered e lease tag target time he hstate htarget =>
    exact sameShape_setEntry he rfl (by simp [ClaimEntry.inForce, hstate])
  case unoffered e old lease tag target time he hstate hlease =>
    exact sameShape_setEntry he rfl (by simp [ClaimEntry.inForce, hstate])
  case passed e old tag time m lease he hstate hwaits hlease =>
    exact sameShape_setEntry he rfl (by simp [ClaimEntry.inForce, hstate])

theorem sameShape_mapEntries {f : ClaimEntry → ClaimEntry} (hf : ∀ e, SameClaim e (f e)) :
    SameShape s (s.setClaims { s.claims with entries := mapVector (Option.map f) s.claims.entries }) := by
  refine ⟨rfl, fun q => ?_⟩
  have hentry : (mapVector (Option.map f) s.claims.entries)[q] = (s.entry q).map f := mapVector_get _ _ q
  rw [State.setClaims_entry, hentry]
  cases s.entry q with
  | none => rfl
  | some e => simp [ClaimEntry.shape, (hf e).set, (hf e).inForce]

/-- The claim table lawful, and evaluated. -/
def Evaluated (s : State) : Prop := ClaimTableLaw s ∧ NoneGrantable s

theorem Evaluated.of_claims_eq (h : Evaluated s) (e : t.claims = s.claims) : Evaluated t :=
  ⟨h.1.of_claims_eq e, h.2.of_sameShape ⟨by rw [e], fun p => by rw [State.entry, e]; rfl⟩⟩

end

theorem evaluated_quiet : Quiet Evaluated where
  port m q _ h := h
  append b h := h
  notices m f _ h := h
  reader m r _ _ h := h
  line l tl h := by cases l <;> exact h

theorem evaluated_channelsKept : ChannelsKept Evaluated where
  toQuiet := evaluated_quiet
  channel _ _ h := h
  renewLeases m set h :=
    ⟨claimTableLaw_kept.renewLeases m set h.1, h.2.of_sameShape (sameShape_mapEntries (ClaimEntry.renewFor_same m set))⟩

/-- Between a change of the order and the end of the evaluation, the table is lawful: that is all the walk needs. -/
theorem evaluated_freeingKept : FreeingKept Evaluated ClaimTableLaw where
  kept := evaluated_quiet
  between := claimTableLaw_kept.toQuiet
  inPlace hc h := ⟨h.1.inPlace hc, h.2.of_sameShape hc.sameShape⟩
  ordered hc h := h.1.ordered hc
  evaluated h := ⟨claimTableLaw_kept.freeingKept.evaluated h, h.grantEvaluation_noneGrantable⟩
  ackRevoke _ h := h
  channel _ _ h := h
  freed _ _ h := h.1.remove _
  bar _ h := h

theorem NoneGrantable.of_empty {s : State} (h : s.claims.order = []) : NoneGrantable s := fun p _ hp => by
  rw [h] at hp
  cases hp

theorem Evaluated.millisecond {s : State} (h : Evaluated s) : Evaluated s.millisecond :=
  ⟨h.1.millisecond, h.2.of_sameShape (t := s.millisecond) (sameShape_mapEntries (s := s) ClaimEntry.tick_same)⟩

theorem Evaluated.exec {s : State} (h : Evaluated s) (i : Instr) : NextSatisfies Evaluated (exec i s) := by
  cases hgroup : commandGroup i with
  | quiet => exact evaluated_quiet.exec h hgroup
  | claims => exact evaluated_freeingKept.exec_claims h hgroup
  | freeing => exact evaluated_freeingKept.exec_freeing h hgroup
  | channels => exact evaluated_channelsKept.exec_channels h hgroup
  | device =>
    exact evaluated_quiet.exec_device (fun m ht => ⟨ht.1.softReset m, .of_empty rfl⟩) (fun _ _ ht => ht.millisecond)
      (fun _ _ _ => ⟨fullResetState_claimTableLaw _ _ _ _, .of_empty rfl⟩) h hgroup

/-- Settles O54: a change of the order is followed by a walk, which leaves no claim grantable, and every other change leaves the
same claims in force and the same ones waiting. -/
theorem noneGrantableKept : Obligations.NoneGrantableKept := fun _ _ hlaw hs hstep =>
  (step_keeps (P := Evaluated) ⟨hlaw, hs⟩ (fun _ h => h) (fun i _ h => h.exec i) hstep).2

end Sys2Proof.Machine
end

section
/-!
What a command can do to a channel unit, said once (R4): what a request of its holder does, with what the checks have found; what its
own timers and the trigger lines do; the orders at the end of a claim; and the resets.
-/

namespace Sys2Proof.Machine

/-! ## What reaches a channel unit -/

/-- What a request of the holder can make of a channel unit, past the checks of its own rule. -/
inductive HolderAct (tag : Word32) (u : ChannelUnit) : ChannelUnit → Prop
  | setRange (r : RangePart) (hconfigurable : u.configurable = true) (hcode : r.holds u.code = true)
      (hfallback : r.holds r.fallback = true) : HolderAct tag u (u.setRange r)
  | setPolicy (p : PolicyPart) (hconfigurable : u.configurable = true) (hsettle : p.settleTime ≠ 0)
      (hretry : p.retryLimit.toNat ≤ 2) : HolderAct tag u (u.setPolicy p)
  | write (code rate : Word16) (hlist : u.list.active = false) (hcode : u.config.range.holds code = true) :
      HolderAct tag u (u.write code rate)
  | clearFault : HolderAct tag u u.clearFault
  | loadStep (slot : Fin 16) (st : StepRecord) (hlist : u.list.active = false)
      (htarget : u.config.range.holds st.target = true) : HolderAct tag u (u.loadStep slot st)
  | setList (d : Descriptor) (hlist : u.list.active = false) (hcount : 1 ≤ d.count.toNat ∧ d.count.toNat ≤ 16)
      (hloaded : u.slotsLoaded d.count.toNat = true) : HolderAct tag u (u.setList d)
  | start (source : Option Line) (hready : u.startable = true) : HolderAct tag u (u.start tag source).1
  | stop (mode : Byte) (hactive : u.list.active = true) : HolderAct tag u (u.stop mode).1
  | pause (hrunning : u.list.isRunning = true) : HolderAct tag u u.pause.1
  | resume (mode : Byte) (hpaused : u.list.isPaused = true) : HolderAct tag u (u.resume tag mode).1
  | proceed : HolderAct tag u (u.proceed tag).1

/-- What the timers of a channel unit and the trigger lines can make of it. -/
inductive OwnAct (tag : Word32) (u : ChannelUnit) : ChannelUnit → Prop
  | moveAdvance : OwnAct tag u (u.moveAdvance tag).1
  | settleExpiry (raw : FaultSet) : OwnAct tag u (u.settleExpiry tag raw).1
  | dwellExpiry : OwnAct tag u (u.dwellExpiry tag).1
  | gapExpiry : OwnAct tag u (u.gapExpiry tag).1
  | edge (l : Line) : OwnAct tag u (u.edge tag l).1
  | tick (hdue : u.due = false) : OwnAct tag u u.tick

/-- What the end of a claim in force orders. -/
inductive OrderAct (u : ChannelUnit) : ChannelUnit → Prop
  | release (mode : ReleaseMode) : OrderAct u (u.releaseOrder mode)
  | revoke : OrderAct u u.revokeOrder

/-- What a command makes of the channel unit of `c`, and of who holds it. -/
inductive ChannelCourse (i : Instr) (s t : State) (c : Ch) : Prop
  | same (hunit : t.channel c = s.channel c) (hfree : t.holder c = none → s.holder c = none)
  | requested (m : Master) (hm : i.frameMaster = some m) (hholder : s.holder c = some m) (hkept : t.holder c = some m)
      (hact : HolderAct s.timeTag (s.channel c) (t.channel c))
  | own (hm : i.frameMaster = none) (hkept : t.holder c = s.holder c) (hact : OwnAct s.timeTag (s.channel c) (t.channel c))
  | ordered (p : Pos) (e : ClaimEntry) (he : s.entry p = some e) (hforce : e.inForce = true)
      (hset : e.set.getLsbD c.val = true) (hm : ∀ m, i.frameMaster = some m → e.master = m)
      (hact : OrderAct (s.channel c) (t.channel c))
  | softReset (m : Master) (hm : i.frameMaster = some m) (hholder : s.holder c = some m)
      (hunit : t.channel c = (s.channel c).softReset)
  | fullReset (hm : i.frameMaster = none) (hunit : t.channel c = ChannelUnit.reset)

/-! ## Commands that reach no channel unit -/

section
variable {s t : State}

theorem KeepsClaims.refl (s : State) : KeepsClaims s s := fun _ e he hforce => ⟨e, he, rfl, hforce⟩

theorem KeepsClaims.trans {u : State} (h : KeepsClaims s t) (h' : KeepsClaims t u) : KeepsClaims s u := by
  intro p e he hforce
  obtain ⟨f, hf, hset, hfforce⟩ := h p e he hforce
  obtain ⟨g, hg, hset', hgforce⟩ := h' p f hf hfforce
  exact ⟨g, hg, hset'.trans hset, hgforce⟩

theorem OrderChange.keepsClaims {u : ClaimTable} (h : OrderChange s u) : KeepsClaims s (s.setClaims u) := by
  intro q f hf hforce
  cases h
  case created p m set lease wait expected hfree hwaits hoverlap hset hlease hwait =>
    have hq : q ≠ p := by
      rintro rfl
      rw [hfree] at hf
      cases hf
    exact ⟨f, (ClaimTable.setEntry_other _ _ hq).trans hf, rfl, hforce⟩
  case dropped p e he hpending =>
    have hq : q ≠ p := by
      rintro rfl
      obtain rfl : e = f := Option.some.inj (he.symm.trans hf)
      exact ClaimEntry.not_pending_of_inForce hforce hpending
    exact ⟨f, (ClaimTable.remove_other _ hq).trans hf, rfl, hforce⟩

/-- The channel units as they were, and every claim in force still there. -/
def Unchanged (s t : State) : Prop := t.channels = s.channels ∧ KeepsClaims s t

theorem Unchanged.refl (s : State) : Unchanged s s := ⟨rfl, .refl s⟩

theorem Unchanged.channel (h : Unchanged s t) (c : Ch) : t.channel c = s.channel c := by
  rw [State.channel, h.1]
  rfl

theorem unchanged_quiet (s : State) : Quiet (Unchanged s) where
  port _ _ _ h := h
  append _ h := h
  notices _ _ _ h := h
  reader _ _ _ _ h := h
  line l _ h := by cases l <;> exact h

theorem unchanged_kept (s : State) : EvaluatedKept (Unchanged s) (Unchanged s) where
  kept := unchanged_quiet s
  between := unchanged_quiet s
  inPlace hc h := ⟨h.1, h.2.trans hc.sameShape.keepsClaims⟩
  ordered hc h := ⟨h.1, h.2.trans hc.keepsClaims⟩
  evaluated := (unchanged_quiet s).grantEvaluation
    (fun he hpending h => ⟨h.1, h.2.trans (OrderChange.dropped he hpending).keepsClaims⟩)
    (fun he hpending _ h => ⟨h.1, h.2.trans (TakenOut.keepsClaims ⟨_, rfl⟩ he hpending)⟩)
  ackRevoke _ h := h

theorem Unchanged.course (h : Unchanged s t) (i : Instr) (c : Ch) : ChannelCourse i s t c :=
  .same (h.channel c) h.2.holder

/-! ## Requests of the holder -/

/-- The state after a request of `m` on the channels that it holds: nobody's holding has changed. -/
def ActsAsHolder (m : Master) (s t : State) : Prop :=
  ∀ c, t.holder c = s.holder c ∧
    (t.channel c = s.channel c ∨ s.holder c = some m ∧ HolderAct s.timeTag (s.channel c) (t.channel c))

theorem ActsAsHolder.refl (m : Master) (s : State) : ActsAsHolder m s s := fun _ => ⟨rfl, .inl rfl⟩

/-- A renewal of leases leaves every channel with its holder. -/
theorem State.holder_mapEntries {f : ClaimEntry → ClaimEntry} (hf : ∀ e, SameClaim e (f e)) (s : State) (c : Ch) :
    (s.setClaims { s.claims with entries := mapVector (Option.map f) s.claims.entries }).holder c = s.holder c := by
  have hholds : ∀ e : ClaimEntry, (f e).holds c = e.holds c := fun e => by
    rw [ClaimEntry.holds, (hf e).inForce, (hf e).set, ClaimEntry.holds]
  have hentry : ∀ p : Pos, ((mapVector (Option.map f) s.claims.entries)[p]).filter (fun e => e.holds c) =
      ((s.claims.entries[p]).filter (fun e => e.holds c)).map f := by
    intro p
    have hget : (mapVector (Option.map f) s.claims.entries)[p] = (s.claims.entries[p]).map f := mapVector_get _ _ p
    rw [hget]
    cases s.claims.entries[p] with
    | none => rfl
    | some e =>
      simp only [Option.map_some, Option.filter_some, hholds]
      split <;> rfl
  have hholding : ∀ ps : List Pos,
      ps.findSome? (fun p => ((mapVector (Option.map f) s.claims.entries)[p]).filter (fun e => e.holds c)) =
        (ps.findSome? (fun p => (s.claims.entries[p]).filter (fun e => e.holds c))).map f := by
    intro ps
    induction ps with
    | nil => rfl
    | cons p rest ih =>
      rw [List.findSome?_cons, List.findSome?_cons, hentry p, ih]
      cases (s.claims.entries[p]).filter (fun e => e.holds c) <;> rfl
  have htable : (s.setClaims { s.claims with entries := mapVector (Option.map f) s.claims.entries }).claims.holding c =
      (s.claims.holding c).map f := hholding allPositions
  rw [State.holder, htable, State.holder, Option.map_map]
  cases s.claims.holding c with
  | none => rfl
  | some e => exact congrArg some (hf e).master

theorem ActsAsHolder.renewLeases {m : Master} (h : ActsAsHolder m s t) (n : Master) (set : ChannelSet) :
    ActsAsHolder m s (t.renewLeases n set) := fun c =>
  ⟨(State.holder_mapEntries (ClaimEntry.renewFor_same n set) t c).trans (h c).1, (h c).2⟩

theorem actsAsHolder_onChannel {m : Master} {c : Ch} {f : ChannelUnit → ChannelUnit} (hholder : s.holder c = some m)
    (hact : HolderAct s.timeTag (s.channel c) (f (s.channel c))) : ActsAsHolder m s (s.onChannel c f) := by
  intro d
  refine ⟨rfl, ?_⟩
  by_cases hd : d = c
  · subst hd
    rw [State.channel_onChannel_same]
    exact .inr ⟨hholder, hact⟩
  · exact .inl (State.channel_onChannel_other s f hd)

theorem State.channelEvents_holder (s : State) (cs : List Ch) (f : ChannelUnit → Progress) (c : Ch) :
    (s.channelEvents cs f).holder c = s.holder c := by
  rw [State.holder, State.channelEvents_claims]
  rfl

theorem State.channelEvent_eq_channelEvents (s : State) (c : Ch) (f : ChannelUnit → Progress) :
    s.channelEvent c f = s.channelEvents [c] f := rfl

theorem actsAsHolder_channelEvents {m : Master} {cs : List Ch} {f : ChannelUnit → Progress} (hnodup : cs.Nodup)
    (hact : ∀ c ∈ cs, s.holder c = some m ∧ HolderAct s.timeTag (s.channel c) (f (s.channel c)).1) :
    ActsAsHolder m s (s.channelEvents cs f) := by
  intro d
  refine ⟨s.channelEvents_holder cs f d, ?_⟩
  by_cases hd : d ∈ cs
  · rw [State.channelEvents_channel_same cs f hnodup hd]
    exact .inr (hact d hd)
  · exact .inl (State.channelEvents_channel_other cs f hd s)

theorem actsAsHolder_listEvents {m : Master} {set : ChannelSet} {f : ChannelUnit → Progress}
    (hholds : s.holdsAll m set = true)
    (hact : ∀ c : Ch, set.getLsbD c.val = true → HolderAct s.timeTag (s.channel c) (f (s.channel c)).1) :
    ActsAsHolder m s (s.listEvents m set f) :=
  (actsAsHolder_channelEvents (channelsOf_nodup set) fun c hc =>
    ⟨State.holdsAll_iff.mp hholds c (mem_channelsOf.mp hc), hact c (mem_channelsOf.mp hc)⟩).renewLeases m set

theorem ownChannel_actsAsHolder {m : Master} {c : Ch} {take : State × Answer}
    (htake : s.holder c = some m → ActsAsHolder m s take.1) : ActsAsHolder m s (ownChannel m c s take).1 := by
  unfold ownChannel
  split
  · exact htake ‹_›
  · exact .refl m s

theorem ownSet_actsAsHolder {m : Master} {set : ChannelSet} {take : State × Answer}
    (htake : s.holdsAll m set = true → ActsAsHolder m s take.1) : ActsAsHolder m s (ownSet m set s take).1 := by
  unfold ownSet
  split
  · exact htake ‹_›
  · exact .refl m s

theorem takeConfigChange_actsAsHolder {m : Master} {c : Ch} {f : ChannelUnit → ChannelUnit} (hholder : s.holder c = some m)
    (hact : HolderAct s.timeTag (s.channel c) (f (s.channel c))) : ActsAsHolder m s (takeConfigChange m c f s).1 :=
  (actsAsHolder_channelEvents (f := configChange f) (List.nodup_singleton c) fun d hd => by
    obtain rfl := List.mem_singleton.mp hd
    exact ⟨hholder, hact⟩).renewLeases m (onlyChannel c)

/-- Past its head, a request on channels acts as the rule that takes it says. -/
theorem request_actsAsHolder {i : Instr} {m : Master} {take : State → State × Answer}
    (htake : ∀ s, i.parametersOk = true → ActsAsHolder m s (take s).1) : NextSatisfies (ActsAsHolder m s) (request i m take s) := by
  rcases request_cases i m take s with h | ⟨status, h⟩ | ⟨⟨-, hok, -⟩, h⟩ <;> rw [h, nextSatisfies_next]
  · exact .refl m s
  · exact .refl m s
  · exact htake (s.endFrame m) hok

theorem ActsAsHolder.course {m : Master} (h : ActsAsHolder m s t) {i : Instr} (hm : i.frameMaster = some m) (c : Ch) :
    ChannelCourse i s t c := by
  obtain ⟨hkept, hunit | ⟨hholder, hact⟩⟩ := h c
  · exact .same hunit fun hc => hkept.symm.trans hc
  · exact .requested m hm hholder (hkept.trans hholder) hact

theorem not_false_of {b : Bool} (h : ¬ b = false) : b = true := by simpa using h

/-- The requests on channels, each with what its checks have found (R59, R62, R79, R91, R107, R109, R124, R137, R141, R143, R146). -/
theorem exec_actsAsHolder {i : Instr} (hi : commandGroup i = .channels) {m : Master} (hm : i.frameMaster = some m) :
    NextSatisfies (ActsAsHolder m s) (exec i s) := by
  cases i <;> cases hm
  case setRange channel low high fallback maxRate =>
    refine request_actsAsHolder fun s hok => ownChannel_actsAsHolder fun hholder =>
      passed_or_keeps (.refl m s) fun hconfigurable => passed_or_keeps (.refl m s) fun hcode =>
        takeConfigChange_actsAsHolder hholder (.setRange _ (not_false_of hconfigurable) (not_false_of hcode) ?_)
    simp only [Instr.parametersOk, Bool.and_eq_true, decide_eq_true_iff] at hok
    exact RangePart.holds_iff.mpr ⟨hok.1.2, hok.2⟩
  case setPolicy channel settle retry packed counted fault revoke =>
    refine request_actsAsHolder fun s hok => ownChannel_actsAsHolder fun hholder =>
      passed_or_keeps (.refl m s) fun hconfigurable =>
        takeConfigChange_actsAsHolder hholder (.setPolicy _ (not_false_of hconfigurable) ?_ ?_)
    all_goals simp only [Instr.parametersOk, Bool.and_eq_true, atMost, decide_eq_true_iff] at hok
    · exact hok.1.1.1.1.1.2
    · exact hok.1.1.1.1.2
  case write channel code rate =>
    exact request_actsAsHolder fun s hok => ownChannel_actsAsHolder fun hholder =>
      passed_or_keeps (.refl m s) fun hlist => passed_or_keeps (.refl m s) fun _ => passed_or_keeps (.refl m s) fun hcode =>
        (actsAsHolder_onChannel hholder (.write code rate (by simpa using hlist) (not_false_of hcode))).renewLeases m _
  case clearFault channel =>
    exact request_actsAsHolder fun s hok => ownChannel_actsAsHolder fun hholder =>
      (actsAsHolder_onChannel hholder .clearFault).renewLeases m _
  case loadStep channel slot target rate dwell flags =>
    exact request_actsAsHolder fun s hok => ownChannel_actsAsHolder fun hholder =>
      passed_or_keeps (.refl m s) fun hlist => passed_or_keeps (.refl m s) fun htarget =>
        (actsAsHolder_onChannel hholder (.loadStep _ _ (by simpa using hlist) (not_false_of htarget))).renewLeases m _
  case setList channel count mode period onFault recordPasses =>
    refine request_actsAsHolder fun s hok => ownChannel_actsAsHolder fun hholder =>
      passed_or_keeps (.refl m s) fun hlist => passed_or_keeps (.refl m s) fun hloaded =>
        (actsAsHolder_onChannel hholder (.setList _ (by simpa using hlist) ?_ (not_false_of hloaded))).renewLeases m _
    simp only [Instr.parametersOk, Bool.and_eq_true, atMost, decide_eq_true_iff] at hok
    obtain ⟨⟨⟨⟨⟨-, hpos⟩, hmost⟩, -⟩, -⟩, -⟩ := hok
    exact ⟨Nat.one_le_iff_ne_zero.mpr fun h => hpos (BitVec.eq_of_toNat_eq h), hmost⟩
  case start set source =>
    exact request_actsAsHolder fun s hok => ownSet_actsAsHolder fun hholds =>
      passed_or_keeps (.refl m s) fun _ => passed_or_keeps (.refl m s) fun hready =>
        actsAsHolder_listEvents hholds fun c hc => .start _ (State.allChannelsIn_iff.mp (not_false_of hready) c hc)
  case stop set mode =>
    exact request_actsAsHolder fun s hok => ownSet_actsAsHolder fun hholds =>
      passed_or_keeps (.refl m s) fun hactive =>
        actsAsHolder_listEvents hholds fun c hc => .stop _ (State.allChannelsIn_iff.mp (not_false_of hactive) c hc)
  case pause set =>
    exact request_actsAsHolder fun s hok => ownSet_actsAsHolder fun hholds =>
      passed_or_keeps (.refl m s) fun hrunning =>
        actsAsHolder_listEvents hholds fun c hc => .pause (State.allChannelsIn_iff.mp (not_false_of hrunning) c hc)
  case resume set mode =>
    exact request_actsAsHolder fun s hok => ownSet_actsAsHolder fun hholds =>
      passed_or_keeps (.refl m s) fun hpaused =>
        actsAsHolder_listEvents hholds fun c hc => .resume _ (State.allChannelsIn_iff.mp (not_false_of hpaused) c hc)
  case proceed set =>
    exact request_actsAsHolder fun s hok => ownSet_actsAsHolder fun hholds =>
      actsAsHolder_listEvents hholds fun c hc => .proceed
  all_goals nomatch hi

/-! ## A channel's own events -/

theorem channelTimer_course {i : Instr} (hm : i.frameMaster = none) {d : Ch} {f : ChannelUnit → Progress}
    (hact : ∀ u, OwnAct s.timeTag u (f u).1) (c : Ch) : ChannelCourse i s (s.channelTimer d f) c := by
  unfold State.channelTimer
  split
  · exact .same rfl id
  · have hholder : (s.channelEvent d f).holder c = s.holder c := by
      rw [State.holder, State.channelEvent_claims]
      rfl
    by_cases hc : c = d
    · subst hc
      refine .own hm hholder ?_
      rw [State.channelEvent_channel_same]
      exact hact _
    · exact .same (State.channelEvent_channel_other s f hc) fun h => hholder.symm.trans h

/-- A trigger edge event reaches every channel unit; an edge that is not selected reaches none (R184). -/
theorem transition_course {i : Instr} (hm : i.frameMaster = none) (l : Line) (level : Level) (c : Ch) :
    ChannelCourse i s (s.transition l level) c := by
  have hunit : (s.setLine l { s.line l with level := level }).channel c = s.channel c := by cases l <;> rfl
  have hholder : (s.setLine l { s.line l with level := level }).holder c = s.holder c := by cases l <;> rfl
  unfold State.transition
  split
  · refine .own hm ((State.channelEvents_holder ..).trans hholder) ?_
    rw [State.channelEvents_channel_same allChannels _ allChannels_nodup (mem_allChannels c), hunit]
    exact .edge l
  · exact .same hunit fun h => hholder.symm.trans h

/-! ## The end of a claim in force -/

/-- The orders go to the channels of the claim; any other channel keeps its holder, if it has one. -/
theorem freed_course {i : Instr} {p : Pos} {e : ClaimEntry} (he : s.entry p = some e) (hforce : e.inForce = true)
    (hm : ∀ m, i.frameMaster = some m → e.master = m) {f : ChannelUnit → ChannelUnit} (hact : ∀ u, OrderAct u (f u))
    (ht : Unchanged ((s.orderAll e.set f).setClaims ((s.orderAll e.set f).claims.remove p)) t) (c : Ch) :
    ChannelCourse i s t c := by
  have hunit : t.channel c = if e.set.getLsbD c.val = true then f (s.channel c) else s.channel c :=
    (ht.channel c).trans (s.orderAll_channel e.set f c)
  by_cases hc : e.set.getLsbD c.val = true
  · rw [if_pos hc] at hunit
    exact .ordered p e he hforce hc hm (hunit ▸ hact _)
  · rw [if_neg hc] at hunit
    refine .same hunit fun hfree => State.holder_eq_none.mpr fun q g hg hgforce => ?_
    by_cases hq : q = p
    · subst hq
      obtain rfl : e = g := Option.some.inj (he.symm.trans hg)
      simpa using hc
    · refine State.holder_eq_none.mp (ht.2.holder hfree) q g ?_ hgforce
      rw [State.setClaims_entry, State.orderAll_claims, State.remove_entry, if_neg hq]
      exact hg

/-- The frame end before a request and the answer after it reach no channel unit. -/
theorem ChannelCourse.of_request {i : Instr} {m : Master} {code : Byte} {a : Answer} {c : Ch}
    (h : ChannelCourse i (s.endFrame m) t c) : ChannelCourse i s (t.respond m code a) c := by
  cases h with
  | same hunit hfree => exact .same hunit hfree
  | requested n hn hholder hkept hact => exact .requested n hn hholder hkept hact
  | own hn hkept hact => exact .own hn hkept hact
  | ordered p e he hforce hset hn hact => exact .ordered p e he hforce hset hn hact
  | softReset n hn hholder hunit => exact .softReset n hn hholder hunit
  | fullReset hn hunit => exact .fullReset hn hunit

theorem request_course {i : Instr} {m : Master} {take : State → State × Answer} {c : Ch}
    (htake : ∀ s, ChannelCourse i s (take s).1 c) : NextSatisfies (ChannelCourse i s · c) (request i m take s) := by
  rcases request_cases i m take s with h | ⟨status, h⟩ | ⟨-, h⟩ <;> rw [h, nextSatisfies_next]
  · exact .same rfl id
  · exact .same rfl id
  · exact (htake _).of_request

theorem release_course (m : Master) (number mode : Byte) (c : Ch) :
    NextSatisfies (ChannelCourse (.release m number mode) s · c) (exec (.release m number mode) s) := by
  refine request_course fun s => ?_
  refine ownClaim_passed (P := (ChannelCourse (.release m number mode) s · c)) (.same rfl id)
    fun p e he hmaster hforce => freed_course (i := .release m number mode) he hforce
      (fun n hn => hmaster.trans (Option.some.inj hn)) (fun _ => .release (releaseModeOf mode)) ?_ c
  exact (unchanged_kept _).evaluated ((unchanged_quiet _).append _ (.refl _))

theorem leaseExpiry_course (p : Pos) (c : Ch) :
    NextSatisfies (ChannelCourse (.leaseExpiry p) s · c) (exec (.leaseExpiry p) s) := by
  show NextSatisfies _ (execLeaseExpiry p s)
  unfold execLeaseExpiry
  split
  · exact nextSatisfies_next.mpr (.same rfl id)
  · cases he : s.entry p with
    | none => exact nextSatisfies_next.mpr (.same rfl id)
    | some e =>
      dsimp only
      split
      case isFalse => exact nextSatisfies_next.mpr (.same rfl id)
      case isTrue hdue =>
        refine nextSatisfies_next.mpr (freed_course (i := .leaseExpiry p) he (ClaimEntry.inForce_of_leaseDue hdue)
          (fun _ hm => nomatch hm) (fun _ => .revoke) ?_ c)
        refine (unchanged_kept _).evaluated ((unchanged_quiet _).append _ ?_)
        exact ⟨rfl, fun _ f hf hforce => ⟨f, hf, rfl, hforce⟩⟩

/-! ## The whole part -/

theorem State.allDue_false (h : s.anyDue = false) (c : Ch) : (s.channel c).due = false := by
  rw [State.anyDue, Bool.or_eq_false_iff] at h
  have := List.any_eq_false.mp h.2 c (mem_allChannels c)
  simpa using this

theorem resetDevice_course (m : Master) (c : Ch) :
    NextSatisfies (ChannelCourse (.resetDevice m) s · c) (exec (.resetDevice m) s) := by
  refine request_course fun s => ?_
  unfold takeResetDevice
  split
  case isFalse => exact .same rfl id
  case isTrue hholds =>
    have hc : allSet.getLsbD c.val = true := by revert c; decide
    exact .softReset m rfl (State.holdsAll_iff.mp hholds c hc) (mapVector_get _ _ c)

theorem timeTagAdvance_course (c : Ch) :
    NextSatisfies (ChannelCourse .timeTagAdvance s · c) (exec .timeTagAdvance s) := by
  refine exec_timeTagAdvance_keeps (P := (ChannelCourse .timeTagAdvance s · c)) (.same rfl id) fun _ hdue => ?_
  have hunit : s.millisecond.channel c = (s.channel c).tick := mapVector_get _ _ c
  refine .own rfl (State.holder_mapEntries ClaimEntry.tick_same s c) ?_
  rw [hunit]
  exact .tick (State.allDue_false hdue c)

theorem fullResetState_channel (pending : List Instr) (inReset : Bool) (level0 level1 : Level) (c : Ch) :
    (fullResetState pending inReset level0 level1).channel c = ChannelUnit.reset := by
  show (Vector.replicate 12 ChannelUnit.reset)[c] = _
  simp

/-! ## Every command -/

theorem exec_course (i : Instr) (s : State) (c : Ch) : NextSatisfies (ChannelCourse i s · c) (exec i s) := by
  cases hgroup : commandGroup i with
  | quiet => exact fun t ht => ((unchanged_quiet s).exec (.refl s) hgroup t ht).course i c
  | claims => exact fun t ht => ((unchanged_kept s).exec_claims (.refl s) hgroup t ht).course i c
  | freeing =>
    cases i
    case release => exact release_course _ _ _ c
    case leaseExpiry => exact leaseExpiry_course _ c
    all_goals nomatch hgroup
  | channels =>
    cases hm : i.frameMaster with
    | some m => exact fun t ht => (exec_actsAsHolder hgroup hm t ht).course hm c
    | none =>
      cases i
      case moveAdvance => exact nextSatisfies_next.mpr (channelTimer_course hm (fun _ => .moveAdvance) c)
      case settleExpiry => exact nextSatisfies_next.mpr (channelTimer_course hm (fun _ => .settleExpiry _) c)
      case dwellExpiry => exact nextSatisfies_next.mpr (channelTimer_course hm (fun _ => .dwellExpiry) c)
      case gapExpiry => exact nextSatisfies_next.mpr (channelTimer_course hm (fun _ => .gapExpiry) c)
      case triggerTransition =>
        exact nextSatisfies_ite (P := (ChannelCourse _ s · c)) (.same rfl id) (transition_course hm _ _ c)
      case setRange | setPolicy | write | clearFault | loadStep | setList | start | stop | pause | resume | proceed =>
        nomatch hm
      all_goals nomatch hgroup
  | device =>
    cases i
    case resetDevice => exact resetDevice_course _ c
    case timeTagAdvance => exact timeTagAdvance_course c
    case fullReset => exact nextSatisfies_next.mpr (.fullReset rfl (fullResetState_channel _ _ _ _ c))
    case fullResetEnd =>
      exact nextSatisfies_ite (P := (ChannelCourse _ s · c)) (.fullReset rfl (fullResetState_channel _ _ _ _ c)) (.same rfl id)
    all_goals nomatch hgroup

end

end Sys2Proof.Machine
end

section
/-!
The laws that follow from who holds a channel: only its holder's frames reach a channel unit (R4), and what a free channel is
doing (R97, R104).
-/

namespace Sys2Proof.Machine

/-! ## Only the holder's frames reach a channel unit (R4) -/

/-- Settles O11: the requests and orders of a frame reach the channels of claims that its master holds. -/
theorem nonHolderChangesNoChannel : Obligations.NonHolderChangesNoChannel := by
  intro i m c s t hlaw hm hnot hexec
  cases exec_course i s c t hexec with
  | same hunit => exact hunit
  | requested n hn hholder =>
    obtain rfl : m = n := Option.some.inj (hm.symm.trans hn)
    exact absurd hholder hnot
  | own hnone => cases hm.symm.trans hnone
  | ordered p e he hforce hset hmaster =>
    exact absurd ((hlaw.holder_eq he hforce hset).trans (congrArg some (hmaster m hm))) hnot
  | softReset n hn hholder =>
    obtain rfl : m = n := Option.some.inj (hm.symm.trans hn)
    exact absurd hholder hnot
  | fullReset hnone => cases hm.symm.trans hnone

/-! ## A channel at rest (R97) -/

/-- A drive that is steady, or on its way to the fallback code. -/
def Drive.Resting (fallback : Word16) : Drive → Prop
  | .steady => True
  | .moving mv => mv.origin = .fallback ∧ mv.target = fallback ∧ mv.checkRequired = false
  | .checking _ => False

/-- A channel unit with no list under way and its drive at rest: what R97 and R104 say of a free channel. -/
def ChannelUnit.Resting (u : ChannelUnit) : Prop := u.list.active = false ∧ u.drive.Resting u.config.range.fallback

theorem freeLaw_iff {s : State} : FreeLaw s ↔ ∀ c, s.holder c = none → (s.channel c).Resting := Iff.rfl

section
variable {u v : ChannelUnit} {tag : Word32}

theorem ChannelUnit.Resting.not_running (h : u.Resting) (r : Runtime) : u.list ≠ .running r := by
  intro e
  have := h.1
  rw [e] at this
  cases this

theorem ChannelUnit.Resting.moveAdvance (h : u.Resting) : (u.moveAdvance tag).1.Resting := by
  unfold ChannelUnit.moveAdvance
  cases hd : u.drive with
  | steady => exact h
  | checking ck => exact h
  | moving mv =>
    have hmv : mv.origin = .fallback ∧ mv.target = u.config.range.fallback ∧ mv.checkRequired = false := by
      have := h.2
      rwa [hd] at this
    obtain ⟨horigin, htarget, hcheck⟩ := hmv
    dsimp only
    split
    case isFalse => exact h
    case isTrue =>
      split
      case isFalse => exact ⟨h.1, horigin, htarget, hcheck⟩
      case isTrue =>
        rw [horigin, hcheck, if_neg (by decide)]
        exact ⟨h.1, trivial⟩

theorem ChannelUnit.Resting.settleExpiry (h : u.Resting) (raw : FaultSet) : (u.settleExpiry tag raw).1.Resting := by
  unfold ChannelUnit.settleExpiry
  cases hd : u.drive with
  | steady => exact h
  | moving mv => exact h
  | checking ck =>
    have := h.2
    rw [hd] at this
    exact this.elim

/-- A list that does not run has no dwell, no gap and no current step. -/
theorem ChannelUnit.Resting.holdsOn (h : u.Resting) (hold : HoldOn) : u.holdsOn hold = none := by
  unfold ChannelUnit.holdsOn
  cases hl : u.list with
  | running r => exact absurd hl (h.not_running r)
  | empty | loaded | armed l | paused r => rfl

theorem ChannelUnit.Resting.edge (h : u.Resting) (l : Line) : (u.edge tag l).1.Resting := by
  have hnot : u.list ≠ .armed l := by
    intro e
    have := h.1
    rw [e] at this
    cases this
  rw [ChannelUnit.edge, if_neg hnot, h.holdsOn]
  cases l <;> exact h

theorem ListState.tick_active (l : ListState) : l.tick.active = l.active := by cases l <;> rfl

theorem ChannelUnit.Resting.tick (h : u.Resting) : u.tick.Resting := by
  refine ⟨u.list.tick_active.trans h.1, ?_⟩
  have hdrive := h.2
  show u.drive.tick.Resting u.config.range.fallback
  cases hd : u.drive <;> rw [hd] at hdrive <;> exact hdrive

/-- At rest, neither the channel's timers nor an edge can set anything going. -/
theorem ChannelUnit.Resting.ownAct (h : u.Resting) (hact : OwnAct tag u v) : v.Resting := by
  cases hact with
  | moveAdvance => exact h.moveAdvance
  | settleExpiry raw => exact h.settleExpiry raw
  | dwellExpiry =>
    unfold ChannelUnit.dwellExpiry
    cases hl : u.list with
    | running r => exact absurd hl (h.not_running r)
    | empty | loaded | armed l | paused r => exact h
  | gapExpiry =>
    unfold ChannelUnit.gapExpiry
    cases hl : u.list with
    | running r => exact absurd hl (h.not_running r)
    | empty | loaded | armed l | paused r => exact h
  | edge l => exact h.edge l
  | tick => exact h.tick

theorem ChannelUnit.revokeOrder_resting (u : ChannelUnit) : u.revokeOrder.Resting := by
  obtain ⟨hlist, hdrive⟩ := u.revokeOrder_spec
  refine ⟨hlist, ?_⟩
  rcases hdrive with e | ⟨mv, e, hmv⟩ <;> rw [e]
  · trivial
  · exact hmv

/-- Every order leaves the channel at rest (R95 to R97). -/
theorem OrderAct.resting (h : OrderAct u v) : v.Resting := by
  cases h with
  | revoke => exact u.revokeOrder_resting
  | release mode =>
    cases mode with
    | hold => exact ⟨u.holdOrder_spec.1, trivial⟩
    | fallback => exact u.revokeOrder_resting

theorem ListState.softReset_active (l : ListState) : l.softReset.active = false := by cases l <;> rfl

end

theorem FreeLaw.exec {s : State} (h : FreeLaw s) (i : Instr) : NextSatisfies FreeLaw (exec i s) := by
  intro t hexec c hfree
  cases exec_course i s c t hexec with
  | same hunit hsame =>
    rw [hunit]
    exact h c (hsame hfree)
  | requested m hm hholder hkept => cases hfree.symm.trans hkept
  | own hm hkept hact => exact (freeLaw_iff.mp h c (hkept.symm.trans hfree)).ownAct hact
  | ordered p e he hforce hset hm hact => exact hact.resting
  | softReset m hm hholder hunit =>
    rw [hunit]
    exact ⟨(s.channel c).list.softReset_active, trivial⟩
  | fullReset hm hunit =>
    rw [hunit]
    exact ⟨rfl, trivial⟩

/-- Settles O58: a channel becomes free by an order or a reset, which leave it at rest, and nothing sets a free one going. -/
theorem freeLawKept : Obligations.FreeLawKept := fun _ _ hs hstep =>
  step_keeps hs (fun _ h => h) (fun i _ h => h.exec i) hstep

end Sys2Proof.Machine
end

section
/-!
Laws of the drive (R56, R66, R72, R85): one walk through everything that reaches a channel unit, for any law of its record, its
slots, its code and its drive; the law of ranges and the law of checks are its two uses.
-/

namespace Sys2Proof.Machine

/-! ## Everything that reaches a channel unit -/

/-- A law of one channel unit that holds after a full reset and is kept by whatever reaches the unit. -/
structure UnitLaw (L : ChannelUnit → Prop) : Prop where
  reset : L ChannelUnit.reset
  softReset {u : ChannelUnit} : L u → L u.softReset
  holder {tag : Word32} {u v : ChannelUnit} : HolderAct tag u v → L u → L v
  own {tag : Word32} {u v : ChannelUnit} : OwnAct tag u v → L u → L v
  order {u v : ChannelUnit} : OrderAct u v → L u → L v

theorem UnitLaw.exec {L : ChannelUnit → Prop} (hL : UnitLaw L) {s : State} (h : AllChannels L s) (i : Instr) :
    NextSatisfies (AllChannels L) (exec i s) := by
  intro t hexec c
  cases exec_course i s c t hexec with
  | same hunit => exact hunit ▸ h c
  | requested m hm hholder hkept hact => exact hL.holder hact (h c)
  | own hm hkept hact => exact hL.own hact (h c)
  | ordered p e he hforce hset hm hact => exact hL.order hact (h c)
  | softReset m hm hholder hunit => exact hunit ▸ hL.softReset (h c)
  | fullReset hm hunit => exact hunit ▸ hL.reset

theorem UnitLaw.kept {L : ChannelUnit → Prop} (hL : UnitLaw L) {s t : State} (hs : AllChannels L s)
    (hstep : step s = .next t) : AllChannels L t :=
  step_keeps hs (fun _ h => h) (fun i _ h => hL.exec h i) hstep

/-! ## Laws of the drive -/

/-- Two units that a law of the drive does not tell apart. -/
def ChannelUnit.SameDrive (u v : ChannelUnit) : Prop :=
  v.config = u.config ∧ v.digest = u.digest ∧ v.code = u.code ∧ v.drive = u.drive ∧ v.slots = u.slots

/-- A law of record, slots, code and drive, with the targets that it allows: what the operations of the drive owe it. -/
structure DriveLaw (L : ChannelUnit → Prop) (Target : RangePart → Word16 → Prop) : Prop where
  reset : L ChannelUnit.reset
  same {u v : ChannelUnit} : L u → u.SameDrive v → L v
  fallback {u : ChannelUnit} : L u → Target u.config.range u.config.range.fallback
  slot {u : ChannelUnit} {n : Fin 16} {st : StepRecord} : L u → u.slots[n] = some st → Target u.config.range st.target
  written {u : ChannelUnit} {code : Word16} : u.config.range.holds code = true → L u → Target u.config.range code
  jump {u : ChannelUnit} {code : Word16} : Target u.config.range code → L u → L { u with code := code, drive := .steady }
  code {u : ChannelUnit} : L u → Target u.config.range u.code
  check {u : ChannelUnit} (o : CheckOrigin) : L u → L (u.startCheck o)
  move {u : ChannelUnit} {mv : Move} :
    Target u.config.range mv.target → mv.rate ≠ 0 → mv.target ≠ u.code → L u → L { u with drive := .moving mv }
  arrival {u : ChannelUnit} {mv : Move} : u.drive = .moving mv → L u → Target u.config.range mv.target
  advance {u : ChannelUnit} {mv : Move} : u.drive = .moving mv → advanceCode u.code mv.target mv.rate ≠ mv.target → L u →
    L { u with code := advanceCode u.code mv.target mv.rate, drive := .moving { mv with advanceDue := false } }
  retry {u : ChannelUnit} {ck : Check} (v : Verdict) :
    u.drive = .checking ck → ck.attempt ≤ u.config.policy.retryLimit → L u → L (u.retry ck v)
  tick {u : ChannelUnit} : u.due = false → L u → L u.tick
  setRange {u : ChannelUnit} {r : RangePart} : u.drive = .steady → r.holds u.code = true → r.holds r.fallback = true → L u →
    L (u.setRange r)
  setPolicy {u : ChannelUnit} {p : PolicyPart} : u.drive = .steady → p.settleTime ≠ 0 → p.retryLimit.toNat ≤ 2 → L u →
    L (u.setPolicy p)
  loadStep {u : ChannelUnit} (slot : Fin 16) {st : StepRecord} : u.config.range.holds st.target = true → L u →
    L (u.loadStep slot st)

section
variable {L : ChannelUnit → Prop} {Target : RangePart → Word16 → Prop} (hL : DriveLaw L Target) {u v : ChannelUnit}
include hL

theorem DriveLaw.steady (h : L u) : L { u with drive := .steady } := hL.jump (hL.code h) h

theorem DriveLaw.list (l : ListState) (h : L u) : L { u with list := l } := hL.same h ⟨rfl, rfl, rfl, rfl, rfl⟩

theorem DriveLaw.endMove (o : MoveOrigin) (required : Bool) {target : Word16} (htarget : Target u.config.range target)
    (h : L u) : L ({ u with code := target }.endMove o required) := by
  have hended : L { u with code := target, drive := .steady } := hL.jump htarget h
  have hchecked (origin : CheckOrigin) : L ({ u with code := target }.startCheck origin) :=
    (hL.check origin hended : _)
  cases required <;> cases o
  case true.write => exact hchecked .write
  case true.step => exact hchecked .step
  all_goals exact hended

theorem DriveLaw.startMove {target : Word16} (o : MoveOrigin) (rate : Word16) (required : Bool)
    (htarget : Target u.config.range target) (h : L u) : L (u.startMove target o rate required) := by
  rcases u.startMove_cases target o rate required with e | ⟨hrate, hway, e⟩ <;> rw [e]
  · exact hL.endMove o required htarget h
  · exact hL.move htarget hrate hway h

theorem DriveLaw.stopMove (h : L u) : L u.stopMove := by
  unfold ChannelUnit.stopMove
  split
  · exact hL.steady h
  all_goals exact h

theorem DriveLaw.cancelCheck (h : L u) : L u.cancelCheck := by
  unfold ChannelUnit.cancelCheck
  split
  · exact hL.steady h
  all_goals exact h

theorem DriveLaw.applyAction (a : Action) (h : L u) : L (u.applyAction a) := by
  cases a with
  | hold => exact hL.stopMove h
  | fallback => exact hL.jump (hL.fallback h) h
  | rampFallback => exact hL.startMove .fallback 0 false (hL.fallback h) h

theorem DriveLaw.abortList (h : L u) : L u.abortList := by
  unfold ChannelUnit.abortList
  split
  · exact hL.list .loaded h
  · exact h

theorem DriveLaw.revokeOrder (h : L u) : L u.revokeOrder := hL.applyAction _ (hL.cancelCheck (hL.abortList h))

theorem DriveLaw.order (hact : OrderAct u v) (h : L u) : L v := by
  cases hact with
  | revoke => exact hL.revokeOrder h
  | release mode =>
    cases mode with
    | hold => exact hL.steady (hL.abortList h)
    | fallback => exact hL.revokeOrder h

/-! ### The steps of a list -/

theorem DriveLaw.setMark (l : Line) (mark : Option Word32) (h : L u) : L (u.setMark l mark) := by
  cases l <;> exact hL.same h ⟨rfl, rfl, rfl, rfl, rfl⟩

theorem DriveLaw.useMark (tag : Word32) (hold : HoldOn) (h : L u) : L (u.useMark tag hold) := by
  unfold ChannelUnit.useMark
  split
  · exact h
  · split
    · exact hL.setMark _ none h
    · exact h

theorem DriveLaw.startStep (tag : Word32) (r : Runtime) (h : L u) : L (u.startStep tag r) := by
  unfold ChannelUnit.startStep
  cases hslot : u.slots[r.index] with
  | none => exact hL.list _ h
  | some st =>
    refine hL.list _ (hL.startMove .step st.rate st.check ?_ (hL.useMark tag st.hold h))
    rw [ChannelUnit.useMark_config]
    exact hL.slot h hslot

theorem DriveLaw.endList (r : Runtime) (h : L u) : L (u.endList r).1 := by
  unfold ChannelUnit.endList
  split
  · exact hL.list _ h
  · exact hL.list _ h
  · exact hL.applyAction _ (hL.list _ h)

theorem DriveLaw.endPass (tag : Word32) (r : Runtime) (h : L u) : L (u.endPass tag r).1 := by
  unfold ChannelUnit.endPass
  split
  · rw [u.preparePass_eq]
    split
    · exact hL.startStep tag _ h
    · exact hL.list _ h
  · exact hL.endList r h

theorem DriveLaw.endStep (tag : Word32) (r : Runtime) (st : StepRecord) (h : L u) : L (u.endStep tag r st).1 := by
  unfold ChannelUnit.endStep
  split
  · split
    · exact hL.startStep tag _ h
    · exact hL.endPass tag r h
  · exact hL.endPass tag r h

theorem DriveLaw.finish (tag : Word32) (h : L u) : L (u.finish tag).1 :=
  ChannelUnit.finish_induct tag (fun _ r st hv _ => hL.endStep tag r st hv) u h

theorem DriveLaw.startList (tag : Word32) (h : L u) : L (u.startList tag).1 := hL.finish tag (hL.startStep tag _ h)

/-! ### The channel's own events -/

theorem DriveLaw.moveAdvance (tag : Word32) (h : L u) : L (u.moveAdvance tag).1 := by
  unfold ChannelUnit.moveAdvance
  cases hd : u.drive with
  | steady | checking ck => exact h
  | moving mv =>
    dsimp only
    split
    case isFalse => exact h
    case isTrue =>
      split
      case isFalse hfar => exact hL.advance hd hfar h
      case isTrue hnear =>
        have htarget : Target u.config.range (advanceCode u.code mv.target mv.rate) := by
          rw [hnear]
          exact hL.arrival hd h
        have hended : L ({ u with code := advanceCode u.code mv.target mv.rate }.endMove mv.origin mv.checkRequired) :=
          hL.endMove _ _ htarget h
        split
        · exact hL.finish tag (hL.list _ hended)
        · exact hended

/-- The end of a check leaves the drive steady, and its outcome behind. -/
theorem DriveLaw.checked (latch : Bool) (k : LastCheck) (h : L u) :
    L { u with drive := .steady, faultLatch := latch, lastCheck := some k } :=
  hL.same (hL.steady h) ⟨rfl, rfl, rfl, rfl, rfl⟩

theorem DriveLaw.checkPass (tag : Word32) (ck : Check) (verdict : Verdict) (h : L u) : L (u.checkPass tag ck verdict).1 := by
  unfold ChannelUnit.checkPass
  dsimp only
  split
  · exact hL.checked _ _ h
  · exact hL.finish tag (hL.list _ (hL.checked _ _ h))

theorem DriveLaw.onFault (tag : Word32) (h : L u) : L (u.onFault tag).1 := by
  unfold ChannelUnit.onFault
  split
  · exact h
  · split
    · exact hL.applyAction _ (hL.list _ h)
    · exact hL.finish tag (hL.list _ h)
    · exact hL.finish tag (hL.list _ h)

theorem DriveLaw.checkFail (tag : Word32) (ck : Check) (verdict : Verdict) (h : L u) : L (u.checkFail tag ck verdict).1 := by
  unfold ChannelUnit.checkFail
  dsimp only
  split
  · exact hL.applyAction _ (hL.checked _ _ h)
  · exact hL.onFault tag (hL.checked _ _ h)

theorem DriveLaw.settleExpiry (tag : Word32) (raw : FaultSet) (h : L u) : L (u.settleExpiry tag raw).1 := by
  unfold ChannelUnit.settleExpiry
  cases hd : u.drive with
  | steady | moving mv => exact h
  | checking ck =>
    dsimp only
    split
    case isFalse => exact h
    case isTrue =>
      split
      case isTrue => exact hL.checkPass tag ck _ h
      case isFalse =>
        split
        case isTrue hattempt => exact hL.retry _ hd hattempt h
        case isFalse => exact hL.checkFail tag ck _ h

theorem DriveLaw.edge (tag : Word32) (l : Line) (h : L u) : L (u.edge tag l).1 := by
  unfold ChannelUnit.edge
  split
  · exact hL.startList tag h
  · split
    · split
      · exact hL.setMark l _ h
      · exact hL.finish tag (hL.list _ h)
    · exact hL.setMark l _ h

theorem DriveLaw.own {tag : Word32} (hact : OwnAct tag u v) (h : L u) : L v := by
  cases hact with
  | moveAdvance => exact hL.moveAdvance tag h
  | settleExpiry raw => exact hL.settleExpiry tag raw h
  | edge l => exact hL.edge tag l h
  | tick hdue => exact hL.tick hdue h
  | dwellExpiry =>
    unfold ChannelUnit.dwellExpiry
    split
    · split
      · exact hL.finish tag (hL.list _ h)
      · exact h
    all_goals exact h
  | gapExpiry =>
    unfold ChannelUnit.gapExpiry
    split
    · split
      · exact hL.finish tag (hL.startStep tag _ h)
      · exact h
    all_goals exact h

/-! ### The holder's requests -/

theorem DriveLaw.stopNow (h : L u) : L u.stopNow.1 := by
  have hstopped : L { u with drive := .steady, list := .loaded } := hL.list .loaded (hL.steady h)
  unfold ChannelUnit.stopNow
  split
  · exact hL.list .loaded h
  · split
    · exact hL.applyAction _ hstopped
    all_goals exact hstopped
  · split
    · exact hL.applyAction _ hstopped
    all_goals exact hstopped
  all_goals exact h

theorem DriveLaw.stop (mode : Byte) (h : L u) : L (u.stop mode).1 := by
  unfold ChannelUnit.stop
  split
  · exact hL.stopNow h
  · unfold ChannelUnit.stopAtPassEnd
    split
    · exact hL.stopNow h
    · split
      · exact hL.stopNow h
      all_goals exact hL.list _ h
    · split
      · exact hL.stopNow h
      all_goals exact hL.list _ h
    all_goals exact h

theorem DriveLaw.pause (h : L u) : L u.pause.1 := by
  unfold ChannelUnit.pause
  split
  · dsimp only
    split
    · exact hL.list _ (hL.stopMove h)
    all_goals exact hL.list _ h
  all_goals exact h

theorem DriveLaw.resumeContinue (tag : Word32) (h : L u) : L (u.resumeContinue tag).1 := by
  unfold ChannelUnit.resumeContinue
  split
  · split
    · refine hL.finish tag ?_
      unfold ChannelUnit.continueMove
      split
      · exact hL.list _ h
      · exact hL.list _ (hL.startMove .step _ _ (hL.slot h ‹_›) h)
    · exact hL.finish tag (hL.list _ h)
    · exact hL.finish tag (hL.list _ h)
    · split
      · exact hL.finish tag (hL.startStep tag _ h)
      · exact hL.list _ h
  all_goals exact h

theorem DriveLaw.resume (tag : Word32) (mode : Byte) (h : L u) : L (u.resume tag mode).1 := by
  unfold ChannelUnit.resume
  split
  · exact hL.resumeContinue tag h
  · unfold ChannelUnit.resumeRepeat
    split
    · split
      · exact hL.finish tag (hL.startStep tag _ h)
      · exact hL.finish tag (hL.startStep tag _ h)
      · exact hL.finish tag (hL.startStep tag _ h)
      · exact hL.resumeContinue tag h
    all_goals exact h

theorem DriveLaw.holder {tag : Word32} (hact : HolderAct tag u v) (h : L u) : L v := by
  cases hact with
  | setRange r hconfigurable hcode hfallback =>
    exact hL.setRange (ChannelUnit.configurable_iff.mp hconfigurable).1 hcode hfallback h
  | setPolicy p hconfigurable hsettle hretry =>
    exact hL.setPolicy (ChannelUnit.configurable_iff.mp hconfigurable).1 hsettle hretry h
  | write code rate hlist hcode =>
    have hready : L u.stopMove.cancelCheck := hL.cancelCheck (hL.stopMove h)
    exact hL.startMove .write rate _ (hL.written (by simpa using hcode) hready) hready
  | clearFault => exact hL.same h ⟨rfl, rfl, rfl, rfl, rfl⟩
  | loadStep slot st hlist htarget => exact hL.loadStep slot htarget h
  | setList d => exact hL.same h ⟨rfl, rfl, rfl, rfl, rfl⟩
  | start source hready =>
    cases source with
    | none => exact hL.startList tag h
    | some l => exact hL.list _ h
  | stop mode => exact hL.stop mode h
  | pause => exact hL.pause h
  | resume mode => exact hL.resume tag mode h
  | proceed =>
    unfold ChannelUnit.proceed
    split
    · split
      · exact h
      · exact hL.finish tag (hL.list _ h)
    · exact h

theorem DriveLaw.unitLaw : UnitLaw L where
  reset := hL.reset
  softReset h := hL.same (hL.steady h) ⟨rfl, rfl, rfl, rfl, rfl⟩
  holder := hL.holder
  own := hL.own
  order := hL.order

end

/-! ## Ranges (R56, R72, R103) -/

theorem RangePart.Within.advanceCode {r : RangePart} {code target : Word16} (hcode : r.Within code) (htarget : r.Within target)
    (rate : Word16) : r.Within (advanceCode code target rate) := by
  obtain ⟨hlow, hhigh⟩ := hcode
  obtain ⟨htlow, hthigh⟩ := htarget
  rcases advanceCode_between code target rate with ⟨h, h'⟩ | ⟨h, h'⟩
  · exact ⟨BitVec.le_trans hlow h, BitVec.le_trans h' hthigh⟩
  · exact ⟨BitVec.le_trans htlow h, BitVec.le_trans h' hhigh⟩

/-- What R72 says of a drive: a move in progress has a way to go, within the range, and a rate to go it. -/
def Drive.InRange (range : RangePart) (code : Word16) : Drive → Prop
  | .steady | .checking _ => True
  | .moving mv => range.Within mv.target ∧ mv.rate ≠ 0 ∧ mv.target ≠ code

theorem rangeLaw_iff {u : ChannelUnit} :
    RangeLaw u ↔ u.config.range.Within u.code ∧ u.config.range.Within u.config.range.fallback ∧
      (∀ (n : Fin 16) st, u.slots[n] = some st → u.config.range.Within st.target) ∧ u.drive.InRange u.config.range u.code :=
  Iff.rfl

theorem Drive.tick_inRange {range : RangePart} {code : Word16} {d : Drive} (h : d.InRange range code) :
    d.tick.InRange range code := by cases d <;> exact h

/-- A slot after a step is loaded into one: the new step there, and the old content elsewhere. -/
theorem ChannelUnit.loadStep_slots (u : ChannelUnit) (slot n : Fin 16) (st : StepRecord) :
    (u.loadStep slot st).slots[n] = if slot = n then some st else u.slots[n] := by
  show (u.slots.set slot (some st))[n.val] = _
  rw [Vector.getElem_set]
  simp only [Fin.ext_iff]
  rfl

theorem blankSlots (n : Fin 16) : (Vector.replicate 16 (none : Option StepRecord))[n] = none :=
  Vector.getElem_replicate n.isLt

theorem rangeLaw_driveLaw : DriveLaw RangeLaw RangePart.Within where
  reset := by
    refine ⟨by decide, by decide, fun n st hst => ?_, trivial⟩
    cases (blankSlots n).symm.trans hst
  same := by
    rintro u v h ⟨hconfig, -, hcode, hdrive, hslots⟩
    rw [rangeLaw_iff, hconfig, hcode, hdrive, hslots]
    exact h
  fallback h := h.2.1
  slot h hst := h.2.2.1 _ _ hst
  written hcode _ := RangePart.holds_iff.mp hcode
  jump hcode h := ⟨hcode, h.2.1, h.2.2.1, trivial⟩
  code h := h.1
  check o h := ⟨h.1, h.2.1, h.2.2.1, trivial⟩
  move htarget hrate hway h := ⟨h.1, h.2.1, h.2.2.1, htarget, hrate, hway⟩
  arrival := by
    rintro u mv hd ⟨-, -, -, h⟩
    rw [hd] at h
    exact h.1
  advance := by
    rintro u mv hd hfar ⟨hcode, hfallback, hslots, h⟩
    rw [hd] at h
    obtain ⟨htarget, hrate, -⟩ := h
    exact ⟨hcode.advanceCode htarget mv.rate, hfallback, hslots, htarget, hrate, hfar.symm⟩
  retry v hd hattempt h := ⟨h.1, h.2.1, h.2.2.1, trivial⟩
  tick hdue h := ⟨h.1, h.2.1, h.2.2.1, Drive.tick_inRange h.2.2.2⟩
  setRange := by
    intro u r hd hcode hfallback h
    refine rangeLaw_iff.mpr ⟨RangePart.holds_iff.mp hcode, RangePart.holds_iff.mp hfallback, fun n st hst => ?_, ?_⟩
    · cases (blankSlots n).symm.trans hst
    · show u.drive.InRange _ _
      rw [hd]
      trivial
  setPolicy hd hsettle hretry h := h
  loadStep := by
    rintro u slot st htarget ⟨hcode, hfallback, hslots, h⟩
    refine ⟨hcode, hfallback, fun n st' hst => ?_, h⟩
    rw [ChannelUnit.loadStep_slots] at hst
    split at hst
    · obtain rfl : st = st' := Option.some.inj hst
      exact RangePart.holds_iff.mp htarget
    · exact hslots n st' hst

/-- Settles O55: a move starts only to a code of the range, and no advance passes its target. -/
theorem rangeLawKept : Obligations.RangeLawKept := fun _ _ hs hstep => rangeLaw_driveLaw.unitLaw.kept hs hstep

/-! ## The record and the checks (R57, R66, R72, R85) -/

/-- What R72 and R85 say of a drive under a policy. -/
def Drive.InAttempts (policy : PolicyPart) : Drive → Prop
  | .steady | .moving _ => True
  | .checking ck =>
    1 ≤ ck.attempt.toNat ∧ ck.attempt.toNat ≤ policy.retryLimit.toNat + 1 ∧ ck.settleRemaining ≤ policy.settleTime ∧
      (ck.previous.isSome = true ↔ ck.attempt ≠ 1)

theorem checkLaw_iff {u : ChannelUnit} : CheckLaw u ↔ u.drive.InAttempts u.config.policy := Iff.rfl

/-- The two laws together: a retry limit of at most 2 leaves room for the next attempt's number. -/
def ConfigAndCheckLaw (u : ChannelUnit) : Prop := ConfigLaw u ∧ CheckLaw u

theorem Drive.tick_inAttempts {policy : PolicyPart} {d : Drive} (h : d.InAttempts policy) (hdue : d.due = false) :
    d.tick.InAttempts policy := by
  cases d with
  | steady | moving mv => exact h
  | checking ck =>
    obtain ⟨hfirst, hlast, hsettle, hprevious⟩ := h
    have hne : ck.settleRemaining ≠ 0 := of_decide_eq_false hdue
    refine ⟨hfirst, hlast, ?_, hprevious⟩
    show (if ck.settleRemaining = 0 then 0 else ck.settleRemaining - 1) ≤ policy.settleTime
    rw [if_neg hne]
    bv_omega

theorem Drive.startCheck_inAttempts (policy : PolicyPart) (o : CheckOrigin) :
    (Drive.checking { origin := o, attempt := 1, settleRemaining := policy.settleTime, previous := none }).InAttempts policy :=
  ⟨Nat.le_refl 1, Nat.le_add_left 1 _, BitVec.le_refl _, by simp⟩

theorem Drive.retry_inAttempts {policy : PolicyPart} {ck : Check} (hlimit : policy.retryLimit.toNat ≤ 2)
    (hattempt : ck.attempt ≤ policy.retryLimit) (hfirst : 1 ≤ ck.attempt.toNat) (v : Verdict) :
    (Drive.checking { ck with attempt := ck.attempt + 1, settleRemaining := policy.settleTime, previous := some v }).InAttempts
      policy := by
  have hle : ck.attempt.toNat ≤ policy.retryLimit.toNat := hattempt
  have hnext : (ck.attempt + 1).toNat = ck.attempt.toNat + 1 := by
    rw [BitVec.toNat_add]
    exact Nat.mod_eq_of_lt (by show ck.attempt.toNat + 1 < 256; omega)
  refine ⟨?_, ?_, BitVec.le_refl _, iff_of_true rfl fun e => ?_⟩
  · rw [hnext]
    omega
  · rw [hnext]
    omega
  · have h1 : ck.attempt.toNat + 1 = 1 := hnext.symm.trans (congrArg BitVec.toNat e)
    omega

/-- The record of a full reset, byte by byte (R191). -/
theorem ConfigRecord.reset_bytes : ConfigRecord.reset.bytes = ConfigRecord.resetBytes := by decide

theorem ChannelUnit.reset_digest : ChannelUnit.reset.digest = crc16 ConfigRecord.resetBytes := by rw [ChannelUnit.reset]

theorem ChannelUnit.reset_config : ChannelUnit.reset.config = .reset := by rw [ChannelUnit.reset]

theorem configAndCheckLaw_driveLaw : DriveLaw ConfigAndCheckLaw (fun _ _ => True) where
  reset := by
    refine ⟨⟨by decide, by decide, ?_⟩, trivial⟩
    rw [ChannelUnit.reset_digest, ChannelUnit.reset_config, ConfigRecord.reset_bytes]
  same := by
    rintro u v h ⟨hconfig, hdigest, -, hdrive, -⟩
    rw [ConfigAndCheckLaw, ConfigLaw, checkLaw_iff, hconfig, hdigest, hdrive]
    exact h
  fallback _ := trivial
  slot _ _ := trivial
  written _ _ := trivial
  jump _ h := ⟨h.1, trivial⟩
  code _ := trivial
  check {u} o h := ⟨h.1, Drive.startCheck_inAttempts u.config.policy o⟩
  move _ _ _ h := ⟨h.1, trivial⟩
  arrival _ _ := trivial
  advance _ _ h := ⟨h.1, trivial⟩
  retry := by
    rintro u ck v hd hattempt ⟨hconfig, hcheck⟩
    rw [checkLaw_iff, hd] at hcheck
    exact ⟨hconfig, Drive.retry_inAttempts hconfig.2.1 hattempt hcheck.1 v⟩
  tick hdue h := ⟨h.1, Drive.tick_inAttempts h.2 (Bool.or_eq_false_iff.mp hdue).1⟩
  setRange := by
    rintro u r hd hcode hfallback ⟨⟨hsettle, hretry, -⟩, hcheck⟩
    exact ⟨⟨hsettle, hretry, rfl⟩, hcheck⟩
  setPolicy := by
    rintro u p hd hsettle hretry ⟨-, hcheck⟩
    refine ⟨⟨hsettle, hretry, rfl⟩, checkLaw_iff.mpr ?_⟩
    show u.drive.InAttempts p
    rw [hd]
    trivial
  loadStep _ _ _ h := h

theorem allChannels_configAndCheckLaw_iff {s : State} :
    AllChannels ConfigAndCheckLaw s ↔ AllChannels ConfigLaw s ∧ AllChannels CheckLaw s := forall_and

/-- Settles O56: a check starts at attempt 1 with the whole settle time, and a retry is the next attempt. -/
theorem configAndCheckLawsKept : Obligations.ConfigAndCheckLawsKept := fun _ _ hconfig hcheck hstep =>
  allChannels_configAndCheckLaw_iff.mp
    (configAndCheckLaw_driveLaw.unitLaw.kept (allChannels_configAndCheckLaw_iff.mpr ⟨hconfig, hcheck⟩) hstep)

end Sys2Proof.Machine
end

section
/-!
The course of a list (R103, R106, R119): its slots are loaded, its drive stands as the phase says, and no step that meets its end
conditions is left standing. The first two are kept by every move from one step to the next; `finish` sees to the third.
-/

namespace Sys2Proof.Machine

/-! ## The two laws that a chain of steps keeps -/

/-- The drive moves or checks nothing for a step. -/
def Drive.OffStep (d : Drive) : Prop := ¬ d.isStepMove ∧ ¬ d.isStepCheck

/-- The drive of a current step, as its phase says (R106, R132). -/
def RunPhase.Drives (dwellTimer : Option Word16) (drive : Drive) : RunPhase → Prop
  | .move => drive.isStepMove
  | .check => drive.isStepCheck
  | .hold => drive = .steady
  | .gap _ => drive = .steady ∧ dwellTimer = none

/-- The drive of a step that a pause has stopped, as its phase says (R141). -/
def RunPhase.Pauses (dwellTimer : Option Word16) (drive : Drive) : RunPhase → Prop
  | .check => drive.isStepCheck
  | .move | .hold => drive = .steady
  | .gap _ => drive = .steady ∧ dwellTimer = none

/-- The slots that R103 asks for, while a list is not EMPTY. -/
def ChannelUnit.StepsLoaded (u : ChannelUnit) : Prop :=
  1 ≤ u.descriptor.count.toNat ∧ u.descriptor.count.toNat ≤ 16 ∧
    ∀ n : Fin 16, n.val < u.descriptor.count.toNat → u.slots[n].isSome = true

/-- What the drive, the slots and the descriptor owe a list state (R103, R106). -/
def ListState.Supported (u : ChannelUnit) : ListState → Prop
  | .empty => u.drive.OffStep
  | .loaded => u.StepsLoaded ∧ u.drive.OffStep
  | .armed _ => u.StepsLoaded ∧ u.drive = .steady
  | .running r => (u.StepsLoaded ∧ r.index.val < u.descriptor.count.toNat) ∧ r.phase.Drives r.dwellTimer u.drive
  | .paused r => (u.StepsLoaded ∧ r.index.val < u.descriptor.count.toNat) ∧ r.phase.Pauses r.dwellTimer u.drive

/-- R103 and R106 of one unit. -/
def InCourse (u : ChannelUnit) : Prop := u.list.Supported u

theorem inCourse_iff {u : ChannelUnit} : InCourse u ↔ ListLaw u ∧ PhaseLaw u := by
  unfold InCourse ListLaw PhaseLaw
  cases u.list with
  | empty => exact ⟨fun h => ⟨fun hne => absurd rfl hne, h⟩, fun h => h.2⟩
  | loaded =>
    exact ⟨fun ⟨⟨h, h', h''⟩, hd⟩ => ⟨fun _ => ⟨h, h', h'', nofun⟩, hd⟩,
      fun ⟨h, hd⟩ => by obtain ⟨h, h', h'', -⟩ := h nofun; exact ⟨⟨h, h', h''⟩, hd⟩⟩
  | armed l =>
    exact ⟨fun ⟨⟨h, h', h''⟩, hd⟩ => ⟨fun _ => ⟨h, h', h'', nofun⟩, hd⟩,
      fun ⟨h, hd⟩ => by obtain ⟨h, h', h'', -⟩ := h nofun; exact ⟨⟨h, h', h''⟩, hd⟩⟩
  | running r =>
    exact ⟨fun ⟨⟨⟨h, h', h''⟩, hr⟩, hd⟩ => ⟨fun _ => ⟨h, h', h'', fun q hq => Option.some.inj hq ▸ hr⟩, hd⟩,
      fun ⟨h, hd⟩ => by obtain ⟨h, h', h'', hr⟩ := h nofun; exact ⟨⟨⟨h, h', h''⟩, hr r rfl⟩, hd⟩⟩
  | paused r =>
    exact ⟨fun ⟨⟨⟨h, h', h''⟩, hr⟩, hd⟩ => ⟨fun _ => ⟨h, h', h'', fun q hq => Option.some.inj hq ▸ hr⟩, hd⟩,
      fun ⟨h, hd⟩ => by obtain ⟨h, h', h'', hr⟩ := h nofun; exact ⟨⟨⟨h, h', h''⟩, hr r rfl⟩, hd⟩⟩

theorem courseLaw_iff {u : ChannelUnit} : CourseLaw u ↔ InCourse u ∧ u.endingStep = none := by
  rw [inCourse_iff, and_assoc]
  rfl

/-! ## Drives -/

theorem Drive.offStep_steady : Drive.steady.OffStep := ⟨id, id⟩

theorem Drive.offStep_moving {mv : Move} (h : mv.origin ≠ .step) : (Drive.moving mv).OffStep := ⟨h, id⟩

theorem Drive.offStep_checking {ck : Check} (h : ck.origin ≠ .step) : (Drive.checking ck).OffStep := ⟨id, h⟩

section
variable {u v : ChannelUnit} {tag : Word32}

theorem ChannelUnit.endMove_offStep {o : MoveOrigin} (ho : o ≠ .step) (required : Bool) (u : ChannelUnit) :
    (u.endMove o required).drive.OffStep := by
  cases required <;> cases o
  case true.write => exact Drive.offStep_checking nofun
  case true.step | false.step => exact absurd rfl ho
  all_goals exact Drive.offStep_steady

theorem ChannelUnit.startMove_offStep {o : MoveOrigin} (ho : o ≠ .step) (target rate : Word16) (required : Bool)
    (u : ChannelUnit) : (u.startMove target o rate required).drive.OffStep := by
  rcases u.startMove_cases target o rate required with e | ⟨-, -, e⟩ <;> rw [e]
  · exact ChannelUnit.endMove_offStep ho required _
  · exact Drive.offStep_moving ho

theorem ChannelUnit.applyAction_offStep {a : Action} (h : ∀ ck, u.drive ≠ .checking ck) : (u.applyAction a).drive.OffStep := by
  rcases ChannelUnit.applyAction_drive a h with e | ⟨mv, e, ho, -⟩ <;> rw [e]
  · exact Drive.offStep_steady
  · exact Drive.offStep_moving (by rw [ho]; decide)

/-- The phase of a step follows from what the end, or the start, of its move leaves (R114). -/
theorem ChannelUnit.endMove_drives (required : Bool) (u : ChannelUnit) (dwell : Option Word16) :
    (u.endMove .step required).drive.stepPhase.Drives dwell (u.endMove .step required).drive := by
  cases required <;> exact rfl

theorem ChannelUnit.startMove_drives (target rate : Word16) (required : Bool) (u : ChannelUnit) (dwell : Option Word16) :
    (u.startMove target .step rate required).drive.stepPhase.Drives dwell (u.startMove target .step rate required).drive := by
  rcases u.startMove_cases target .step rate required with e | ⟨-, -, e⟩ <;> rw [e]
  · exact ChannelUnit.endMove_drives required _ dwell
  · exact rfl

/-! ## What other fields owe -/

/-- The operations of the drive leave slots and descriptor: what a list needs of them stands. -/
theorem ChannelUnit.StepsLoaded.of_eq (h : u.StepsLoaded) (hslots : v.slots = u.slots) (hdescriptor : v.descriptor = u.descriptor) :
    v.StepsLoaded := by
  rw [ChannelUnit.StepsLoaded, hslots, hdescriptor]
  exact h

theorem InCourse.offStep (h : InCourse u) (hlist : u.list.active = false) : u.drive.OffStep := by
  unfold InCourse at h
  cases hl : u.list <;> rw [hl] at h hlist
  case empty => exact h
  case loaded => exact h.2
  all_goals cases hlist

theorem InCourse.stepsLoaded (h : InCourse u) (hlist : u.list ≠ .empty) : u.StepsLoaded := by
  unfold InCourse at h
  cases hl : u.list <;> rw [hl] at h
  case empty => exact absurd hl hlist
  case loaded | armed => exact h.1
  case running | paused => exact h.1.1

theorem InCourse.running {r : Runtime} (h : InCourse u) (hl : u.list = .running r) :
    u.StepsLoaded ∧ r.index.val < u.descriptor.count.toNat ∧ r.phase.Drives r.dwellTimer u.drive := by
  rw [InCourse, hl] at h
  exact ⟨h.1.1, h.1.2, h.2⟩

theorem InCourse.paused {r : Runtime} (h : InCourse u) (hl : u.list = .paused r) :
    u.StepsLoaded ∧ r.index.val < u.descriptor.count.toNat ∧ r.phase.Pauses r.dwellTimer u.drive := by
  rw [InCourse, hl] at h
  exact ⟨h.1.1, h.1.2, h.2⟩

theorem InCourse.of_inactive (h : InCourse u) (hlist : u.list.active = false) (hv : v.list = u.list) (hslots : v.slots = u.slots)
    (hdescriptor : v.descriptor = u.descriptor) (hdrive : v.drive.OffStep) : InCourse v := by
  unfold InCourse at h ⊢
  rw [hv]
  cases hl : u.list <;> rw [hl] at h hlist
  case empty => exact hdrive
  case loaded => exact ⟨h.1.of_eq hslots hdescriptor, hdrive⟩
  all_goals cases hlist

/-- A list that is made LOADED, with the drive at no step. -/
theorem ChannelUnit.StepsLoaded.inCourse_loaded (h : u.StepsLoaded) (hv : v.list = .loaded) (hslots : v.slots = u.slots)
    (hdescriptor : v.descriptor = u.descriptor) (hdrive : v.drive.OffStep) : InCourse v := by
  unfold InCourse
  rw [hv]
  exact ⟨h.of_eq hslots hdescriptor, hdrive⟩

theorem endingStep_of_not_running (h : ∀ r, u.list ≠ .running r) : u.endingStep = none := by
  unfold ChannelUnit.endingStep
  cases hl : u.list with
  | running r => exact absurd hl (h r)
  | empty | loaded | armed l | paused r => rfl

theorem endingStep_of_inactive (h : u.list.active = false) : u.endingStep = none :=
  endingStep_of_not_running fun r e => by
    rw [e] at h
    cases h

theorem endingStep_of_phase {r : Runtime} (hl : u.list = .running r) (h : r.phase ≠ .hold) : u.endingStep = none := by
  rw [ChannelUnit.endingStep, hl]
  dsimp only
  split
  · rfl
  · exact if_neg fun hmet => h hmet.1

/-- Only the list and the slots say whether a step ends. -/
theorem endingStep_of_eq (hlist : v.list = u.list) (hslots : v.slots = u.slots) : v.endingStep = u.endingStep := by
  rw [ChannelUnit.endingStep, hlist, hslots]
  rfl

/-! ## From one step to the next -/

/-- A step that starts puts the drive and the phase where R113 says, whatever the drive was doing. -/
theorem ChannelUnit.StepsLoaded.startStep (h : u.StepsLoaded) (tag : Word32) {r : Runtime}
    (hindex : r.index.val < u.descriptor.count.toNat) : InCourse (u.startStep tag r) := by
  obtain ⟨st, hst⟩ := Option.isSome_iff_exists.mp (h.2.2 r.index hindex)
  rw [ChannelUnit.startStep, hst]
  exact ⟨⟨h.of_eq (by simp) (by simp), by simpa using hindex⟩, ChannelUnit.startMove_drives ..⟩

theorem ChannelUnit.StepsLoaded.beginPass (h : u.StepsLoaded) (tag : Word32) (r : Runtime) : InCourse (u.beginPass tag r) :=
  h.startStep tag h.1

theorem ChannelUnit.StepsLoaded.endList (h : u.StepsLoaded) (hd : u.drive = .steady) (r : Runtime) : InCourse (u.endList r).1 := by
  have hloaded : { u with list := .loaded }.drive.OffStep := by
    show u.drive.OffStep
    rw [hd]
    exact Drive.offStep_steady
  unfold ChannelUnit.endList
  split
  · exact h.inCourse_loaded rfl rfl rfl hloaded
  · exact h.inCourse_loaded rfl rfl rfl hloaded
  · exact h.inCourse_loaded (by simp) (by simp) (by simp)
      (ChannelUnit.applyAction_offStep (u := { u with list := .loaded }) fun ck e => nomatch hd.symm.trans e)

theorem ChannelUnit.StepsLoaded.endPass (h : u.StepsLoaded) (hd : u.drive = .steady) {r : Runtime} (hdwell : r.dwellTimer = none)
    (tag : Word32) : InCourse (u.endPass tag r).1 := by
  unfold ChannelUnit.endPass
  split
  · rw [u.preparePass_eq]
    split
    · exact h.beginPass tag _
    · exact ⟨⟨h, h.1⟩, hd, hdwell⟩
  · exact h.endList hd r

theorem InCourse.endStep (h : InCourse u) {r : Runtime} {st : StepRecord} (hend : u.endingStep = some (r, st)) :
    InCourse (u.endStep tag r st).1 := by
  obtain ⟨hl, -, hphase, hdwell, -⟩ := ChannelUnit.endingStep_spec hend
  obtain ⟨hloaded, -, hdrives⟩ := h.running hl
  have hd : u.drive = .steady := by
    rw [hphase] at hdrives
    exact hdrives
  unfold ChannelUnit.endStep
  split
  · split
    case isTrue hnext => exact hloaded.startStep tag hnext
    case isFalse => exact hloaded.endPass hd hdwell tag
  · exact hloaded.endPass hd hdwell tag

/-- The end of an event completes the course law: the chain of steps keeps two of its parts and makes the third. -/
theorem InCourse.finish (h : InCourse u) (tag : Word32) : CourseLaw (u.finish tag).1 :=
  courseLaw_iff.mpr ⟨ChannelUnit.finish_induct tag (fun _ _ _ hv hend => hv.endStep hend) u h, u.finish_ended tag⟩

theorem ChannelUnit.StepsLoaded.startList (h : u.StepsLoaded) (tag : Word32) : CourseLaw (u.startList tag).1 :=
  (h.beginPass tag _).finish tag

/-! ## Laws of the course, kept -/

theorem CourseLaw.inCourse (h : CourseLaw u) : InCourse u := (courseLaw_iff.mp h).1

theorem CourseLaw.ended (h : CourseLaw u) : u.endingStep = none := h.2.2

/-- Neither law sees record, digest, code, stage, latch, last check or marks. -/
theorem CourseLaw.of_same (h : CourseLaw u) (hdrive : v.drive = u.drive) (hslots : v.slots = u.slots)
    (hdescriptor : v.descriptor = u.descriptor) (hlist : v.list = u.list) : CourseLaw v := by
  refine courseLaw_iff.mpr ⟨?_, (endingStep_of_eq hlist hslots).trans h.ended⟩
  have hu := h.inCourse
  unfold InCourse ListState.Supported ChannelUnit.StepsLoaded at hu ⊢
  rw [hlist, hdrive, hslots, hdescriptor]
  exact hu

/-- A list that is not under way, with the drive at no step. -/
theorem CourseLaw.of_inactive (h : CourseLaw u) (hlist : u.list.active = false) (hv : v.list = u.list) (hslots : v.slots = u.slots)
    (hdescriptor : v.descriptor = u.descriptor) (hdrive : v.drive.OffStep) : CourseLaw v :=
  courseLaw_iff.mpr ⟨h.inCourse.of_inactive hlist hv hslots hdescriptor hdrive, endingStep_of_inactive (hv ▸ hlist)⟩

theorem ChannelUnit.StepsLoaded.courseLaw_loaded (h : u.StepsLoaded) (hv : v.list = .loaded) (hslots : v.slots = u.slots)
    (hdescriptor : v.descriptor = u.descriptor) (hdrive : v.drive.OffStep) : CourseLaw v :=
  courseLaw_iff.mpr ⟨h.inCourse_loaded hv hslots hdescriptor hdrive, endingStep_of_inactive (by rw [hv]; rfl)⟩

/-- A list that is aborted, or was not under way, with the drive at no step. -/
theorem CourseLaw.of_aborted (h : CourseLaw u) (hv : v.list = u.list.aborted) (hslots : v.slots = u.slots)
    (hdescriptor : v.descriptor = u.descriptor) (hdrive : v.drive.OffStep) : CourseLaw v := by
  by_cases hlist : u.list.active = true
  · have hne : u.list ≠ .empty := fun e => by
      rw [e] at hlist
      cases hlist
    rw [ListState.aborted, if_pos hlist] at hv
    exact (h.inCourse.stepsLoaded hne).courseLaw_loaded hv hslots hdescriptor hdrive
  · rw [ListState.aborted, if_neg hlist] at hv
    exact h.of_inactive (by simpa using hlist) hv hslots hdescriptor hdrive

end

end Sys2Proof.Machine
end

section
/-!
Everything that reaches a channel unit keeps the course of its list (R103, R106, R119): orders, the holder's requests, the
channel's own timers and the trigger lines.
-/

namespace Sys2Proof.Machine

section
variable {u v : ChannelUnit} {tag : Word32}

/-! ## Orders and resets -/

theorem CourseLaw.revokeOrder (h : CourseLaw u) : CourseLaw u.revokeOrder := by
  obtain ⟨d, hd, e⟩ := u.revokeOrder_eq
  rw [e]
  exact h.of_aborted (by simp) (by simp) (by simp) (ChannelUnit.applyAction_offStep hd)

theorem CourseLaw.order (hact : OrderAct u v) (h : CourseLaw u) : CourseLaw v := by
  cases hact with
  | revoke => exact h.revokeOrder
  | release mode =>
    cases mode with
    | fallback => exact h.revokeOrder
    | hold =>
      rw [u.releaseOrder_hold_eq]
      exact h.of_aborted rfl rfl rfl Drive.offStep_steady

theorem ListState.softReset_eq_aborted (l : ListState) : l.softReset = l.aborted := by cases l <;> rfl

theorem CourseLaw.softReset (h : CourseLaw u) : CourseLaw u.softReset :=
  h.of_aborted u.list.softReset_eq_aborted rfl rfl Drive.offStep_steady

theorem courseLaw_reset : CourseLaw ChannelUnit.reset :=
  courseLaw_iff.mpr ⟨Drive.offStep_steady, rfl⟩

/-! ## The timers of a channel and the trigger lines -/

theorem RunPhase.Drives.cases {p : RunPhase} {dwell : Option Word16} {d : Drive} (h : p.Drives dwell d) :
    p = .move ∧ d.isStepMove ∨ p = .check ∧ d.isStepCheck ∨ d = .steady := by
  cases p with
  | move => exact .inl ⟨rfl, h⟩
  | check => exact .inr (.inl ⟨rfl, h⟩)
  | hold => exact .inr (.inr h)
  | gap g => exact .inr (.inr h.1)

theorem RunPhase.Pauses.cases {p : RunPhase} {dwell : Option Word16} {d : Drive} (h : p.Pauses dwell d) :
    p = .check ∧ d.isStepCheck ∨ d = .steady := by
  cases p with
  | check => exact .inl ⟨rfl, h⟩
  | move | hold => exact .inr h
  | gap g => exact .inr h.1

/-- Read from the drive: a drive that is under way is at no step, with no list under way, or at the step that the phase names. -/
theorem InCourse.cases (h : InCourse u) :
    u.list.active = false ∧ u.drive.OffStep ∨ (∃ r, u.list = .running r ∧ r.phase = .move ∧ u.drive.isStepMove) ∨
      (∃ r, (u.list = .running r ∨ u.list = .paused r) ∧ r.phase = .check ∧ u.drive.isStepCheck) ∨ u.drive = .steady := by
  cases hl : u.list with
  | empty => exact .inl ⟨rfl, h.offStep (by rw [hl]; rfl)⟩
  | loaded => exact .inl ⟨rfl, h.offStep (by rw [hl]; rfl)⟩
  | armed l =>
    rw [InCourse, hl] at h
    exact .inr (.inr (.inr h.2))
  | running r =>
    rcases (h.running hl).2.2.cases with ⟨hp, hm⟩ | ⟨hp, hc⟩ | hs
    · exact .inr (.inl ⟨r, rfl, hp, hm⟩)
    · exact .inr (.inr (.inl ⟨r, .inl rfl, hp, hc⟩))
    · exact .inr (.inr (.inr hs))
  | paused r =>
    rcases (h.paused hl).2.2.cases with ⟨hp, hc⟩ | hs
    · exact .inr (.inr (.inl ⟨r, .inr rfl, hp, hc⟩))
    · exact .inr (.inr (.inr hs))

theorem Drive.isStepMove.not_check {d : Drive} (h : d.isStepMove) : ¬ d.isStepCheck := by
  cases d with
  | moving mv => exact id
  | steady | checking ck => exact h.elim

theorem Drive.isStepMove.not_steady {d : Drive} (h : d.isStepMove) : d ≠ .steady := by rintro rfl; exact h

theorem Drive.isStepCheck.not_steady {d : Drive} (h : d.isStepCheck) : d ≠ .steady := by rintro rfl; exact h

/-- A drive that is under way, but at no step, is so beside a list that is not under way. -/
theorem InCourse.inactive_of_offStep (h : InCourse u) (hoff : u.drive.OffStep) (hne : u.drive ≠ .steady) :
    u.list.active = false := by
  rcases h.cases with ⟨hl, -⟩ | ⟨r, -, -, hm⟩ | ⟨r, -, -, hc⟩ | hs
  · exact hl
  · exact absurd hm hoff.1
  · exact absurd hc hoff.2
  · exact absurd hs hne

/-- A step moves only in phase MOVE of a RUNNING list. -/
theorem InCourse.exists_of_stepMove (h : InCourse u) (hmove : u.drive.isStepMove) :
    ∃ r, u.list = .running r ∧ r.phase = .move := by
  rcases h.cases with ⟨-, hoff⟩ | ⟨r, hl, hp, -⟩ | ⟨r, -, -, hc⟩ | hs
  · exact absurd hmove hoff.1
  · exact ⟨r, hl, hp⟩
  · exact absurd hc hmove.not_check
  · exact absurd hs hmove.not_steady

/-- A step is checked only in phase CHECK, on a list that is RUNNING or PAUSED. -/
theorem InCourse.exists_of_stepCheck (h : InCourse u) (hcheck : u.drive.isStepCheck) :
    ∃ r, (u.list = .running r ∨ u.list = .paused r) ∧ r.phase = .check := by
  rcases h.cases with ⟨-, hoff⟩ | ⟨r, -, -, hm⟩ | ⟨r, hl, hp, -⟩ | hs
  · exact absurd hcheck hoff.2
  · exact absurd hcheck hm.not_check
  · exact ⟨r, hl, hp⟩
  · exact absurd hs hcheck.not_steady

/-- The drive under way goes on: the same origin, beside the same list. -/
theorem CourseLaw.of_sameStep (h : CourseLaw u) (hmove : v.drive.isStepMove ↔ u.drive.isStepMove)
    (hcheck : v.drive.isStepCheck ↔ u.drive.isStepCheck) (hsteady : u.drive ≠ .steady) (hslots : v.slots = u.slots)
    (hdescriptor : v.descriptor = u.descriptor) (hlist : v.list = u.list) : CourseLaw v := by
  refine courseLaw_iff.mpr ⟨?_, (endingStep_of_eq hlist hslots).trans h.ended⟩
  have hu := h.inCourse
  by_cases hstep : u.drive.OffStep
  · exact hu.of_inactive (hu.inactive_of_offStep hstep hsteady) hlist hslots hdescriptor
      ⟨fun e => hstep.1 (hmove.mp e), fun e => hstep.2 (hcheck.mp e)⟩
  · by_cases hm : u.drive.isStepMove
    · obtain ⟨r, hl, hp⟩ := hu.exists_of_stepMove hm
      obtain ⟨hloaded, hindex, -⟩ := hu.running hl
      rw [InCourse, hlist, hl]
      refine ⟨⟨hloaded.of_eq hslots hdescriptor, by rw [hdescriptor]; exact hindex⟩, ?_⟩
      rw [hp]
      exact hmove.mpr hm
    · have hc : u.drive.isStepCheck := by
        by_contra hc
        exact hstep ⟨hm, hc⟩
      obtain ⟨r, hl | hl, hp⟩ := hu.exists_of_stepCheck hc
      · obtain ⟨hloaded, hindex, -⟩ := hu.running hl
        rw [InCourse, hlist, hl]
        refine ⟨⟨hloaded.of_eq hslots hdescriptor, by rw [hdescriptor]; exact hindex⟩, ?_⟩
        rw [hp]
        exact hcheck.mpr hc
      · obtain ⟨hloaded, hindex, -⟩ := hu.paused hl
        rw [InCourse, hlist, hl]
        refine ⟨⟨hloaded.of_eq hslots hdescriptor, by rw [hdescriptor]; exact hindex⟩, ?_⟩
        rw [hp]
        exact hcheck.mpr hc

theorem CourseLaw.moveAdvance (h : CourseLaw u) (tag : Word32) : CourseLaw (u.moveAdvance tag).1 := by
  unfold ChannelUnit.moveAdvance
  cases hd : u.drive with
  | steady | checking ck => exact h
  | moving mv =>
    have hne : u.drive ≠ .steady := by rw [hd]; exact nofun
    dsimp only
    split
    case isFalse => exact h
    case isTrue =>
      split
      case isFalse =>
        exact h.of_sameStep (by rw [hd]; rfl) (by rw [hd]; rfl) hne rfl rfl rfl
      case isTrue =>
        split
        case isTrue horigin =>
          obtain ⟨r, hl, hp⟩ := h.inCourse.exists_of_stepMove (by rw [hd]; exact horigin)
          obtain ⟨hloaded, hindex, -⟩ := h.inCourse.running hl
          refine InCourse.finish ?_ tag
          rw [horigin, InCourse]
          simp only [ChannelUnit.endMove_list, hl, ListState.mapRuntime]
          exact ⟨⟨hloaded.of_eq (by simp) (by simp), by simpa using hindex⟩, ChannelUnit.endMove_drives ..⟩
        case isFalse horigin =>
          exact h.of_inactive (h.inCourse.inactive_of_offStep (by rw [hd]; exact Drive.offStep_moving horigin) hne) (by simp)
            (by simp) (by simp) (ChannelUnit.endMove_offStep horigin _ _)

/-- A step's check that ends leaves the list in phase HOLD, and the drive steady. -/
theorem InCourse.checked {r : Runtime} (h : InCourse u) (hl : u.list = .running r ∨ u.list = .paused r)
    {f : Runtime → Runtime} (hphase : (f r).phase = .hold) (hindex : (f r).index = r.index)
    (hv : v.list = u.list.mapRuntime f) (hslots : v.slots = u.slots) (hdescriptor : v.descriptor = u.descriptor)
    (hdrive : v.drive = .steady) : InCourse v := by
  rcases hl with hl | hl
  · obtain ⟨hloaded, hcount, -⟩ := h.running hl
    rw [InCourse, hv, hl]
    refine ⟨⟨hloaded.of_eq hslots hdescriptor, by rw [hindex, hdescriptor]; exact hcount⟩, ?_⟩
    rw [hphase]
    exact hdrive
  · obtain ⟨hloaded, hcount, -⟩ := h.paused hl
    rw [InCourse, hv, hl]
    refine ⟨⟨hloaded.of_eq hslots hdescriptor, by rw [hindex, hdescriptor]; exact hcount⟩, ?_⟩
    rw [hphase]
    exact hdrive

theorem CourseLaw.checkPass (h : CourseLaw u) {ck : Check} (hd : u.drive = .checking ck) (verdict : Verdict) :
    CourseLaw (u.checkPass tag ck verdict).1 := by
  have hne : u.drive ≠ .steady := by rw [hd]; exact nofun
  unfold ChannelUnit.checkPass
  dsimp only
  split
  case h_1 ho =>
    exact h.of_inactive (h.inCourse.inactive_of_offStep (by rw [hd]; exact Drive.offStep_checking (by rw [ho]; nofun)) hne)
      rfl rfl rfl Drive.offStep_steady
  case h_2 ho =>
    obtain ⟨r, hl, -⟩ := h.inCourse.exists_of_stepCheck (by rw [hd]; exact ho)
    refine InCourse.finish ?_ tag
    exact h.inCourse.checked hl (f := fun r => { r with phase := .hold }) rfl rfl rfl rfl rfl rfl

/-- The on-fault rule, on a unit whose drive the failed check has left steady. -/
theorem InCourse.onFault {r : Runtime} (h : InCourse u) (hl : u.list = .running r ∨ u.list = .paused r)
    (hv : v.list = u.list) (hslots : v.slots = u.slots) (hdescriptor : v.descriptor = u.descriptor)
    (hdrive : v.drive = .steady) (tag : Word32) : CourseLaw (v.onFault tag).1 := by
  have hr : v.list.runtime? = some r := by rw [hv]; rcases hl with e | e <;> rw [e] <;> rfl
  have hne : u.list ≠ .empty := by rcases hl with e | e <;> rw [e] <;> exact nofun
  rw [ChannelUnit.onFault, hr]
  dsimp only
  split
  · refine (h.stepsLoaded hne).courseLaw_loaded (by simp) (by simpa using hslots) (by simpa using hdescriptor) ?_
    exact ChannelUnit.applyAction_offStep (u := { v with list := .loaded }) fun ck e => nomatch hdrive.symm.trans e
  · refine InCourse.finish ?_ tag
    exact h.checked hl (f := fun r => { r with phase := .hold, pendingStop := some .fault }) rfl rfl
      (congrArg (ListState.mapRuntime _) hv) hslots hdescriptor hdrive
  · refine InCourse.finish ?_ tag
    exact h.checked hl (f := fun r => { r with phase := .hold }) rfl rfl (congrArg (ListState.mapRuntime _) hv) hslots
      hdescriptor hdrive

theorem CourseLaw.checkFail (h : CourseLaw u) {ck : Check} (hd : u.drive = .checking ck) (verdict : Verdict) :
    CourseLaw (u.checkFail tag ck verdict).1 := by
  have hne : u.drive ≠ .steady := by rw [hd]; exact nofun
  unfold ChannelUnit.checkFail
  dsimp only
  split
  case h_1 ho =>
    refine h.of_inactive (h.inCourse.inactive_of_offStep (by rw [hd]; exact Drive.offStep_checking (by rw [ho]; nofun)) hne)
      (by simp) (by simp) (by simp) ?_
    exact ChannelUnit.applyAction_offStep nofun
  case h_2 ho =>
    obtain ⟨r, hl, -⟩ := h.inCourse.exists_of_stepCheck (by rw [hd]; exact ho)
    exact h.inCourse.onFault (v := { u with drive := .steady, faultLatch := true, lastCheck := _ }) hl rfl rfl rfl rfl tag

theorem CourseLaw.settleExpiry (h : CourseLaw u) (tag : Word32) (raw : FaultSet) : CourseLaw (u.settleExpiry tag raw).1 := by
  unfold ChannelUnit.settleExpiry
  cases hd : u.drive with
  | steady | moving mv => exact h
  | checking ck =>
    dsimp only
    split
    case isFalse => exact h
    case isTrue =>
      split
      case isTrue => exact h.checkPass hd _
      case isFalse =>
        split
        case isTrue =>
          exact h.of_sameStep (by rw [hd]; rfl) (by rw [hd]; rfl) (by rw [hd]; exact nofun) rfl rfl rfl
        case isFalse => exact h.checkFail hd _

/-- A RUNNING list whose record keeps index and phase, and in phase GAP its dwell timer. -/
theorem InCourse.of_running {r q : Runtime} (h : InCourse u) (hl : u.list = .running r) (hv : v.list = .running q)
    (hindex : q.index = r.index) (hphase : q.phase = r.phase) (hdwell : r.dwellTimer = none → q.dwellTimer = none)
    (hdrive : v.drive = u.drive) (hslots : v.slots = u.slots) (hdescriptor : v.descriptor = u.descriptor) : InCourse v := by
  obtain ⟨hloaded, hcount, hdrives⟩ := h.running hl
  rw [InCourse, hv]
  refine ⟨⟨hloaded.of_eq hslots hdescriptor, by rw [hindex, hdescriptor]; exact hcount⟩, ?_⟩
  rw [hphase, hdrive]
  cases hp : r.phase <;> rw [hp] at hdrives
  case gap g => exact ⟨hdrives.1, hdwell hdrives.2⟩
  all_goals exact hdrives

theorem CourseLaw.dwellExpiry (h : CourseLaw u) (tag : Word32) : CourseLaw (u.dwellExpiry tag).1 := by
  unfold ChannelUnit.dwellExpiry
  split
  case h_1 r hl =>
    split
    · refine InCourse.finish ?_ tag
      exact h.inCourse.of_running hl rfl rfl rfl (fun _ => rfl) rfl rfl rfl
    · exact h
  all_goals exact h

theorem CourseLaw.gapExpiry (h : CourseLaw u) (tag : Word32) : CourseLaw (u.gapExpiry tag).1 := by
  unfold ChannelUnit.gapExpiry
  split
  case h_1 r hl =>
    split
    · exact ((h.inCourse.running hl).1.beginPass tag r).finish tag
    · exact h
  all_goals exact h

/-- The list that a current step is held on is RUNNING. -/
theorem ChannelUnit.holdsOn_running {hold : HoldOn} {r : Runtime} (h : u.holdsOn hold = some r) : u.list = .running r := by
  unfold ChannelUnit.holdsOn at h
  split at h
  case h_1 q hl =>
    split at h
    · cases h
    · split at h
      · exact hl.trans (congrArg _ (Option.some.inj h))
      · cases h
    · cases h
  all_goals cases h

theorem CourseLaw.setMark (h : CourseLaw u) (l : Line) (mark : Option Word32) : CourseLaw (u.setMark l mark) := by
  cases l <;> exact h.of_same rfl rfl rfl rfl

theorem CourseLaw.edge (h : CourseLaw u) (tag : Word32) (l : Line) : CourseLaw (u.edge tag l).1 := by
  unfold ChannelUnit.edge
  split
  case isTrue harmed => exact (h.inCourse.stepsLoaded (by rw [harmed]; exact nofun)).startList tag
  case isFalse =>
    split
    case h_1 r hr =>
      split
      · exact h.setMark l _
      · refine InCourse.finish ?_ tag
        exact h.inCourse.of_running (ChannelUnit.holdsOn_running hr) rfl rfl rfl id rfl rfl rfl
    case h_2 => exact h.setMark l _

theorem RunPhase.tick_eq_hold_iff {p : RunPhase} : p.tick = .hold ↔ p = .hold := by cases p <;> simp [RunPhase.tick]

/-- A millisecond changes no origin, no phase's kind and no index, and brings no step to its end. -/
theorem CourseLaw.tick (h : CourseLaw u) : CourseLaw u.tick := by
  have hmove : u.drive.tick.isStepMove ↔ u.drive.isStepMove := by cases u.drive <;> exact Iff.rfl
  have hcheck : u.drive.tick.isStepCheck ↔ u.drive.isStepCheck := by cases u.drive <;> exact Iff.rfl
  have hsteady : u.drive = .steady → u.drive.tick = .steady := fun e => by rw [e]; rfl
  have hoff : u.drive.OffStep → u.drive.tick.OffStep := fun ⟨hm, hc⟩ => ⟨fun e => hm (hmove.mp e), fun e => hc (hcheck.mp e)⟩
  have hu := h.inCourse
  unfold InCourse at hu
  refine courseLaw_iff.mpr ⟨?_, ?_⟩
  · show u.list.tick.Supported u.tick
    cases hl : u.list with rw [hl] at hu
    | empty => exact hoff hu
    | loaded => exact ⟨hu.1, hoff hu.2⟩
    | armed l => exact ⟨hu.1, hsteady hu.2⟩
    | running r =>
      refine ⟨hu.1, ?_⟩
      have hd := hu.2
      show r.phase.tick.Drives (r.dwellTimer.map countDown) u.drive.tick
      cases hp : r.phase <;> rw [hp] at hd
      · exact hmove.mpr hd
      · exact hcheck.mpr hd
      · exact hsteady hd
      · exact ⟨hsteady hd.1, by rw [hd.2]; rfl⟩
    | paused r =>
      refine ⟨hu.1, ?_⟩
      have hd := hu.2
      show r.phase.Pauses r.dwellTimer u.drive.tick
      cases hp : r.phase <;> rw [hp] at hd
      · exact hsteady hd
      · exact hcheck.mpr hd
      · exact hsteady hd
      · exact ⟨hsteady hd.1, hd.2⟩
  · cases hend : u.tick.endingStep with
    | none => rfl
    | some x =>
      obtain ⟨hl, hst, hphase, hdwell, hmet⟩ := ChannelUnit.endingStep_spec hend
      cases hul : u.list with
      | running r =>
        have hq : u.tick.list = .running { r with dwellTimer := r.dwellTimer.map countDown, phase := r.phase.tick } := by
          show u.list.tick = _
          rw [hul]
          rfl
        have hx := (ListState.running.inj (hq.symm.trans hl)).symm
        rw [hx] at hst hphase hdwell hmet
        exact absurd (ChannelUnit.endingStep_of_met hul hst (RunPhase.tick_eq_hold_iff.mp hphase) (Option.map_eq_none_iff.mp hdwell) hmet)
          (by rw [h.ended]; exact nofun)
      | empty | loaded | armed l | paused r => cases (show u.list.tick = _ from hl).symm.trans (congrArg ListState.tick hul)

theorem CourseLaw.own (hact : OwnAct tag u v) (h : CourseLaw u) : CourseLaw v := by
  cases hact with
  | moveAdvance => exact h.moveAdvance tag
  | settleExpiry raw => exact h.settleExpiry tag raw
  | dwellExpiry => exact h.dwellExpiry tag
  | gapExpiry => exact h.gapExpiry tag
  | edge l => exact h.edge tag l
  | tick => exact h.tick

end

end Sys2Proof.Machine
end

section
/-!
What the requests and the edges do to a list, one equation per case (R117, R118, R124, R137 to R146).
-/

namespace Sys2Proof.Machine

section
variable {u : ChannelUnit} {tag : Word32} {r : Runtime}

theorem ChannelUnit.startable_iff : u.startable = true ↔ u.list = .loaded ∧ u.drive = .steady := by
  rw [ChannelUnit.startable, Bool.and_eq_true, decide_eq_true_iff, decide_eq_true_iff]

/-! ## Stop (R138, R139) -/

/-- A channel unit whose list is stopped at once: the drive rests, and the list is LOADED. -/
def ChannelUnit.stopped (u : ChannelUnit) : ChannelUnit := { u with drive := .steady, list := .loaded }

theorem ChannelUnit.stopNow_armed {l : Line} (hl : u.list = .armed l) :
    u.stopNow = ({ u with list := .loaded }, [.record (.listStopped .request none none), .notice .list]) := by
  rw [ChannelUnit.stopNow, hl]

theorem ChannelUnit.stopNow_fault (hl : u.list = .running r ∨ u.list = .paused r) (hstop : r.pendingStop = some .fault) :
    u.stopNow =
      (u.stopped.applyAction u.config.policy.faultAction,
        [.record (.listStopped .fault (some r.passCount) r.stopIndex), .notice .list]) := by
  rcases hl with hl | hl <;> simp only [ChannelUnit.stopNow, hl, hstop] <;> rfl

theorem ChannelUnit.stopNow_request (hl : u.list = .running r ∨ u.list = .paused r) (hstop : r.pendingStop ≠ some .fault) :
    u.stopNow = (u.stopped, [.record (.listStopped .request (some r.passCount) r.stopIndex), .notice .list]) := by
  have hcases : r.pendingStop = none ∨ r.pendingStop = some .request := by
    cases hp : r.pendingStop with
    | none => exact .inl rfl
    | some reason =>
      cases reason with
      | request => exact .inr rfl
      | fault => exact absurd hp hstop
  rcases hl with hl | hl <;> rcases hcases with hp | hp <;> simp only [ChannelUnit.stopNow, hl, hp] <;> rfl

theorem ChannelUnit.stopNow_inactive (hl : u.list.active = false) : u.stopNow = (u, []) := by
  unfold ChannelUnit.stopNow
  cases h : u.list with
  | empty | loaded => rfl
  | armed l | running r | paused r =>
    rw [h] at hl
    cases hl

theorem ChannelUnit.stopAtPassEnd_armed {l : Line} (hl : u.list = .armed l) : u.stopAtPassEnd = u.stopNow := by
  rw [ChannelUnit.stopAtPassEnd, hl]

theorem ChannelUnit.stopAtPassEnd_gap (hl : u.list = .running r ∨ u.list = .paused r) {g : Word16} (hp : r.phase = .gap g) :
    u.stopAtPassEnd = u.stopNow := by
  rcases hl with hl | hl <;> simp only [ChannelUnit.stopAtPassEnd, hl, hp]

theorem ChannelUnit.stopAtPassEnd_step (hl : u.list = .running r ∨ u.list = .paused r) (hp : ∀ g, r.phase ≠ .gap g) :
    u.stopAtPassEnd = ({ u with list := u.list.mapRuntime Runtime.requestStop }, []) := by
  cases hphase : r.phase with
  | gap g => exact absurd hphase (hp g)
  | move | check | hold => rcases hl with hl | hl <;> simp only [ChannelUnit.stopAtPassEnd, hl, hphase]

theorem ChannelUnit.stopAtPassEnd_inactive (hl : u.list.active = false) : u.stopAtPassEnd = (u, []) := by
  unfold ChannelUnit.stopAtPassEnd
  cases h : u.list with
  | empty | loaded => rfl
  | armed l | running r | paused r =>
    rw [h] at hl
    cases hl

theorem Runtime.requestStop_eq (r : Runtime) :
    r.requestStop = { r with pendingStop := if r.pendingStop = none then some .request else r.pendingStop } := by
  unfold Runtime.requestStop
  cases r.pendingStop <;> rfl

/-! ## Pause and resume (R141, R143, R144) -/

theorem ChannelUnit.pause_move (hl : u.list = .running r) (hp : r.phase = .move) :
    u.pause = ({ u.stopMove with list := .paused { r with dwellTimer := frozenDwell r.dwellTimer } }, []) := by
  simp only [ChannelUnit.pause, hl, hp]

theorem ChannelUnit.pause_other (hl : u.list = .running r) (hp : r.phase ≠ .move) :
    u.pause = ({ u with list := .paused { r with dwellTimer := frozenDwell r.dwellTimer } }, []) := by
  cases hphase : r.phase with
  | move => exact absurd hphase hp
  | check | hold | gap g => simp only [ChannelUnit.pause, hl, hphase]

theorem ChannelUnit.resumeContinue_move (hl : u.list = .paused r) (hp : r.phase = .move) :
    u.resumeContinue tag = (u.continueMove r).finish tag := by
  simp only [ChannelUnit.resumeContinue, hl, hp]

theorem ChannelUnit.resumeContinue_step (hl : u.list = .paused r) (hp : r.phase = .check ∨ r.phase = .hold) :
    u.resumeContinue tag = ({ u with list := .running r } : ChannelUnit).finish tag := by
  rcases hp with hp | hp <;> simp only [ChannelUnit.resumeContinue, hl, hp]

theorem ChannelUnit.resumeContinue_gap (hl : u.list = .paused r) {g : Word16} (hp : r.phase = .gap g) (hg : g ≠ 0) :
    u.resumeContinue tag = ({ u with list := .running r }, []) := by
  simp only [ChannelUnit.resumeContinue, hl, hp, if_neg hg]

theorem ChannelUnit.resumeContinue_gapOver (hl : u.list = .paused r) (hp : r.phase = .gap 0) :
    u.resumeContinue tag = (u.beginPass tag r).finish tag := by
  simp only [ChannelUnit.resumeContinue, hl, hp, if_true]

theorem ChannelUnit.resumeRepeat_step (hl : u.list = .paused r) (hp : ∀ g, r.phase ≠ .gap g) :
    u.resumeRepeat tag = (u.startStep tag r).finish tag := by
  cases hphase : r.phase with
  | gap g => exact absurd hphase (hp g)
  | move | check | hold => simp only [ChannelUnit.resumeRepeat, hl, hphase]

theorem ChannelUnit.resumeRepeat_gap (hl : u.list = .paused r) {g : Word16} (hp : r.phase = .gap g) :
    u.resumeRepeat tag = u.resumeContinue tag := by
  simp only [ChannelUnit.resumeRepeat, hl, hp]

/-! ## Holds (R117, R118, R146) -/

theorem ChannelUnit.holdsOn_iff {hold : HoldOn} :
    u.holdsOn hold = some r ↔
      u.list = .running r ∧ (∀ g, r.phase ≠ .gap g) ∧ ∃ st, u.slots[r.index] = some st ∧ st.hold = hold := by
  unfold ChannelUnit.holdsOn
  cases hl : u.list with
  | empty | loaded | armed l | paused q => exact iff_of_false nofun fun h => nomatch h.1
  | running q =>
    dsimp only
    constructor
    · intro h
      split at h
      · cases h
      · rename_i hst hgap
        split at h
        · obtain rfl := Option.some.inj h
          exact ⟨rfl, hgap, _, hst, ‹_›⟩
        · cases h
      · cases h
    · rintro ⟨hq, hgap, st, hst, hhold⟩
      obtain rfl := ListState.running.inj hq
      split
      · exact absurd ‹_› (hgap _)
      · rename_i hst' _
        rw [Option.some.inj (hst'.symm.trans hst), if_pos hhold]
      · rename_i hst' _
        cases hst'.symm.trans hst

theorem lineHold_line_iff {hold : HoldOn} {l : Line} : hold = lineHold l ↔ hold.line = some l := by
  cases hold <;> cases l <;> simp [lineHold, HoldOn.line]

theorem ChannelUnit.edge_armed {l : Line} (hl : u.list = .armed l) : u.edge tag l = u.startList tag := if_pos hl

theorem ChannelUnit.edge_used {l : Line} (hr : u.holdsOn (lineHold l) = some r) (hseen : r.triggerSeen = false) :
    u.edge tag l = ({ u with list := .running { r with triggerSeen := true } } : ChannelUnit).finish tag := by
  have hl : u.list ≠ .armed l := fun e => nomatch e.symm.trans (ChannelUnit.holdsOn_iff.mp hr).1
  simp only [ChannelUnit.edge, if_neg hl, hr, hseen, Bool.false_eq_true, if_false]

theorem ChannelUnit.edge_marked {l : Line} (hl : u.list ≠ .armed l)
    (hr : ∀ r, u.holdsOn (lineHold l) = some r → r.triggerSeen = true) : u.edge tag l = (u.setMark l (some tag), []) := by
  rw [ChannelUnit.edge, if_neg hl]
  cases h : u.holdsOn (lineHold l) with
  | none => rfl
  | some r => exact if_pos (hr r h)

theorem ChannelUnit.proceed_seen (hr : u.holdsOn .proceed = some r) (hseen : r.proceedSeen = false) :
    u.proceed tag = ({ u with list := .running { r with proceedSeen := true } } : ChannelUnit).finish tag := by
  simp only [ChannelUnit.proceed, hr, hseen, Bool.false_eq_true, if_false]

theorem ChannelUnit.proceed_unchanged (hr : ∀ r, u.holdsOn .proceed = some r → r.proceedSeen = true) :
    u.proceed tag = (u, []) := by
  unfold ChannelUnit.proceed
  cases h : u.holdsOn .proceed with
  | none => rfl
  | some r => exact if_pos (hr r h)

end

end Sys2Proof.Machine
end

section
/-!
The holder's requests keep the course of a list (R60, R63, R80, R91, R108, R110, R125, R126, R138, R139, R141 to R146).
-/

namespace Sys2Proof.Machine

section
variable {u v : ChannelUnit} {tag : Word32}

/-! ## Configuration, writes and the slots -/

theorem CourseLaw.write (h : CourseLaw u) (hlist : u.list.active = false) (code rate : Word16) : CourseLaw (u.write code rate) :=
  h.of_inactive hlist (by simp) (by simp) (by simp) (ChannelUnit.startMove_offStep (o := .write) nofun ..)

theorem CourseLaw.setRange (hd : u.drive = .steady) (r : RangePart) : CourseLaw (u.setRange r) := by
  refine courseLaw_iff.mpr ⟨?_, rfl⟩
  show u.drive.OffStep
  rw [hd]
  exact Drive.offStep_steady

theorem CourseLaw.loadStep (h : CourseLaw u) (hlist : u.list.active = false) (slot : Fin 16) (st : StepRecord) :
    CourseLaw (u.loadStep slot st) := by
  refine courseLaw_iff.mpr ⟨?_, endingStep_of_inactive hlist⟩
  have hoff := h.inCourse.offStep hlist
  show u.list.Supported (u.loadStep slot st)
  cases hl : u.list with
  | empty => exact hoff
  | loaded =>
    obtain ⟨hpos, hmost, hslots⟩ := h.inCourse.stepsLoaded (by rw [hl]; exact nofun)
    refine ⟨⟨hpos, hmost, fun n hn => ?_⟩, hoff⟩
    rw [ChannelUnit.loadStep_slots]
    split
    · rfl
    · exact hslots n hn
  | armed l | running r | paused r =>
    rw [hl] at hlist
    cases hlist

theorem CourseLaw.setList (h : CourseLaw u) (hlist : u.list.active = false) {d : Descriptor}
    (hcount : 1 ≤ d.count.toNat ∧ d.count.toNat ≤ 16) (hloaded : u.slotsLoaded d.count.toNat = true) :
    CourseLaw (u.setList d) := by
  refine courseLaw_iff.mpr ⟨⟨⟨hcount.1, hcount.2, fun n hn => ?_⟩, h.inCourse.offStep hlist⟩, rfl⟩
  exact Option.isSome_iff_ne_none.mpr (ChannelUnit.slotsLoaded_iff.mp hloaded n hn)

/-! ## Start and stop -/

theorem CourseLaw.start (h : CourseLaw u) (hready : u.startable = true) (source : Option Line) :
    CourseLaw (u.start tag source).1 := by
  obtain ⟨hl, hd⟩ := ChannelUnit.startable_iff.mp hready
  have hloaded : u.StepsLoaded := h.inCourse.stepsLoaded (by rw [hl]; exact nofun)
  cases source with
  | none => exact hloaded.startList tag
  | some l => exact courseLaw_iff.mpr ⟨⟨hloaded, hd⟩, rfl⟩

theorem CourseLaw.stopNow_runtime (h : CourseLaw u) {r : Runtime} (hl : u.list = .running r ∨ u.list = .paused r) :
    CourseLaw u.stopNow.1 := by
  have hloaded : u.StepsLoaded := h.inCourse.stepsLoaded (by rcases hl with e | e <;> rw [e] <;> exact nofun)
  by_cases hstop : r.pendingStop = some .fault
  · rw [ChannelUnit.stopNow_fault hl hstop]
    exact hloaded.courseLaw_loaded (ChannelUnit.applyAction_list ..) (ChannelUnit.applyAction_slots ..)
      (ChannelUnit.applyAction_descriptor ..) (ChannelUnit.applyAction_offStep nofun)
  · rw [ChannelUnit.stopNow_request hl hstop]
    exact hloaded.courseLaw_loaded rfl rfl rfl Drive.offStep_steady

theorem CourseLaw.stopNow (h : CourseLaw u) : CourseLaw u.stopNow.1 := by
  cases hl : u.list with
  | empty | loaded =>
    rw [ChannelUnit.stopNow_inactive (by rw [hl]; rfl)]
    exact h
  | running r => exact h.stopNow_runtime (.inl hl)
  | paused r => exact h.stopNow_runtime (.inr hl)
  | armed l =>
    have hu := h.inCourse
    rw [InCourse, hl] at hu
    obtain ⟨hloaded, hd⟩ := hu
    rw [ChannelUnit.stopNow_armed hl]
    exact hloaded.courseLaw_loaded rfl rfl rfl (hd ▸ Drive.offStep_steady)

/-- A stop that becomes pending leaves the phase, and is no end condition. -/
theorem CourseLaw.requestStop (h : CourseLaw u) {r : Runtime} (hl : u.list = .running r ∨ u.list = .paused r) :
    CourseLaw { u with list := u.list.mapRuntime Runtime.requestStop } := by
  rcases hl with hl | hl
  · have hv : u.list.mapRuntime Runtime.requestStop = .running r.requestStop := by rw [hl]; rfl
    refine courseLaw_iff.mpr ⟨?_, ?_⟩
    · exact h.inCourse.of_running hl hv rfl rfl id rfl rfl rfl
    · rw [hv]
      refine Option.eq_none_iff_forall_ne_some.mpr fun x hend => ?_
      obtain ⟨hx, hst, hphase, hdwell, hmet⟩ := ChannelUnit.endingStep_spec hend
      obtain ⟨q, st⟩ := x
      obtain rfl : r.requestStop = q := ListState.running.inj hx
      exact nomatch (ChannelUnit.endingStep_of_met hl hst hphase hdwell hmet).symm.trans h.ended
  · have hv : u.list.mapRuntime Runtime.requestStop = .paused r.requestStop := by rw [hl]; rfl
    obtain ⟨hloaded, hindex, hpauses⟩ := h.inCourse.paused hl
    rw [hv]
    exact courseLaw_iff.mpr ⟨⟨⟨hloaded, hindex⟩, hpauses⟩, rfl⟩

theorem CourseLaw.stopAtPassEnd_runtime (h : CourseLaw u) {r : Runtime} (hl : u.list = .running r ∨ u.list = .paused r) :
    CourseLaw u.stopAtPassEnd.1 := by
  by_cases hp : ∃ g, r.phase = .gap g
  · obtain ⟨g, hg⟩ := hp
    rw [ChannelUnit.stopAtPassEnd_gap hl hg]
    exact h.stopNow
  · rw [ChannelUnit.stopAtPassEnd_step hl fun g hg => hp ⟨g, hg⟩]
    exact h.requestStop hl

theorem CourseLaw.stop (h : CourseLaw u) (mode : Byte) : CourseLaw (u.stop mode).1 := by
  unfold ChannelUnit.stop
  split
  · exact h.stopNow
  · cases hl : u.list with
    | empty | loaded =>
      rw [ChannelUnit.stopAtPassEnd_inactive (by rw [hl]; rfl)]
      exact h
    | running r => exact h.stopAtPassEnd_runtime (.inl hl)
    | paused r => exact h.stopAtPassEnd_runtime (.inr hl)
    | armed l =>
      rw [ChannelUnit.stopAtPassEnd_armed hl]
      exact h.stopNow

/-! ## Pause and resume -/

theorem Drive.isStepMove.exists_moving {d : Drive} (h : d.isStepMove) : ∃ mv, d = .moving mv := by
  cases d with
  | moving mv => exact ⟨mv, rfl⟩
  | steady | checking ck => exact h.elim

theorem ChannelUnit.stopMove_moving {mv : Move} (hd : u.drive = .moving mv) : u.stopMove = { u with drive := .steady } := by
  rw [ChannelUnit.stopMove, hd]

theorem CourseLaw.pause (h : CourseLaw u) : CourseLaw u.pause.1 := by
  cases hl : u.list with
  | empty | loaded | armed l | paused r =>
    rw [ChannelUnit.pause, hl]
    exact h
  | running r =>
    obtain ⟨hloaded, hindex, hdrives⟩ := h.inCourse.running hl
    by_cases hp : r.phase = .move
    · rw [ChannelUnit.pause_move hl hp]
      refine courseLaw_iff.mpr ⟨⟨⟨hloaded.of_eq (by simp) (by simp), by simpa using hindex⟩, ?_⟩, rfl⟩
      rw [hp] at hdrives
      show r.phase.Pauses _ u.stopMove.drive
      rw [hp]
      obtain ⟨mv, hd⟩ := Drive.isStepMove.exists_moving hdrives
      show u.stopMove.drive = .steady
      rw [ChannelUnit.stopMove_moving hd]
    · rw [ChannelUnit.pause_other hl hp]
      refine courseLaw_iff.mpr ⟨⟨⟨hloaded, hindex⟩, ?_⟩, rfl⟩
      show r.phase.Pauses (frozenDwell r.dwellTimer) u.drive
      cases hphase : r.phase <;> rw [hphase] at hdrives
      · exact absurd hphase hp
      · exact hdrives
      · exact hdrives
      · exact ⟨hdrives.1, by rw [hdrives.2]; rfl⟩

theorem ChannelUnit.StepsLoaded.continueMove (h : u.StepsLoaded) {r : Runtime} (hindex : r.index.val < u.descriptor.count.toNat) :
    InCourse (u.continueMove r) := by
  obtain ⟨st, hst⟩ := Option.isSome_iff_exists.mp (h.2.2 r.index hindex)
  rw [ChannelUnit.continueMove, hst]
  exact ⟨⟨h.of_eq (by simp) (by simp), by simpa using hindex⟩, ChannelUnit.startMove_drives ..⟩

theorem CourseLaw.resumeContinue (h : CourseLaw u) {r : Runtime} (hl : u.list = .paused r) (tag : Word32) :
    CourseLaw (u.resumeContinue tag).1 := by
  obtain ⟨hloaded, hindex, hpauses⟩ := h.inCourse.paused hl
  cases hp : r.phase with
  | move =>
    rw [ChannelUnit.resumeContinue_move hl hp]
    exact (hloaded.continueMove hindex).finish tag
  | check =>
    rw [ChannelUnit.resumeContinue_step hl (.inl hp)]
    rw [hp] at hpauses
    refine InCourse.finish ?_ tag
    exact ⟨⟨hloaded, hindex⟩, by rw [hp]; exact hpauses⟩
  | hold =>
    rw [ChannelUnit.resumeContinue_step hl (.inr hp)]
    rw [hp] at hpauses
    refine InCourse.finish ?_ tag
    exact ⟨⟨hloaded, hindex⟩, by rw [hp]; exact hpauses⟩
  | gap g =>
    by_cases hg : g = 0
    · subst hg
      rw [ChannelUnit.resumeContinue_gapOver hl hp]
      exact (hloaded.beginPass tag r).finish tag
    · rw [ChannelUnit.resumeContinue_gap hl hp hg]
      rw [hp] at hpauses
      exact courseLaw_iff.mpr
        ⟨⟨⟨hloaded, hindex⟩, by rw [hp]; exact hpauses⟩, endingStep_of_phase rfl (by rw [hp]; exact nofun)⟩

theorem ListState.exists_of_isPaused {l : ListState} (h : l.isPaused = true) : ∃ r, l = .paused r := by
  cases l with
  | paused r => exact ⟨r, rfl⟩
  | empty | loaded | armed | running => cases h

theorem CourseLaw.resume (h : CourseLaw u) (hpaused : u.list.isPaused = true) (tag : Word32) (mode : Byte) :
    CourseLaw (u.resume tag mode).1 := by
  obtain ⟨r, hl⟩ := ListState.exists_of_isPaused hpaused
  obtain ⟨hloaded, hindex, -⟩ := h.inCourse.paused hl
  unfold ChannelUnit.resume
  split
  · exact h.resumeContinue hl tag
  · by_cases hp : ∃ g, r.phase = .gap g
    · obtain ⟨g, hg⟩ := hp
      rw [ChannelUnit.resumeRepeat_gap hl hg]
      exact h.resumeContinue hl tag
    · rw [ChannelUnit.resumeRepeat_step hl fun g hg => hp ⟨g, hg⟩]
      exact (hloaded.startStep tag hindex).finish tag

theorem CourseLaw.proceed (h : CourseLaw u) (tag : Word32) : CourseLaw (u.proceed tag).1 := by
  by_cases hr : ∃ r, u.holdsOn .proceed = some r ∧ r.proceedSeen = false
  · obtain ⟨r, hr, hseen⟩ := hr
    rw [ChannelUnit.proceed_seen hr hseen]
    refine InCourse.finish ?_ tag
    exact h.inCourse.of_running (ChannelUnit.holdsOn_running hr) rfl rfl rfl id rfl rfl rfl
  · rw [ChannelUnit.proceed_unchanged fun r hr' => by
      by_contra hseen
      exact hr ⟨r, hr', by simpa using hseen⟩]
    exact h

/-! ## Every request -/

theorem CourseLaw.holder (hact : HolderAct tag u v) (h : CourseLaw u) : CourseLaw v := by
  cases hact with
  | setRange r hconfigurable => exact .setRange (ChannelUnit.configurable_iff.mp hconfigurable).1 r
  | setPolicy p => exact h.of_same rfl rfl rfl rfl
  | write code rate hlist => exact h.write hlist code rate
  | clearFault => exact h.of_same rfl rfl rfl rfl
  | loadStep slot st hlist => exact h.loadStep hlist slot st
  | setList d hlist hcount hloaded => exact h.setList hlist hcount hloaded
  | start source hready => exact h.start hready source
  | stop mode => exact h.stop mode
  | pause => exact h.pause
  | resume mode hpaused => exact h.resume hpaused tag mode
  | proceed => exact h.proceed tag

theorem courseLaw_unitLaw : UnitLaw CourseLaw where
  reset := courseLaw_reset
  softReset h := h.softReset
  holder := CourseLaw.holder
  own := CourseLaw.own
  order := CourseLaw.order

end

/-- Settles O57: whatever sets a list going starts a step at a loaded slot, and every event that can meet an end condition runs
its chain of step ends through. -/
theorem courseLawKept : Obligations.CourseLawKept := fun _ _ hs hstep => courseLaw_unitLaw.kept hs hstep

end Sys2Proof.Machine
end

section
/-!
The laws right after reset, and the values that a full reset gives (R186).
-/

namespace Sys2Proof.Machine

theorem State.reset_eq : State.reset = fullResetState [] false .low .low := rfl

theorem UnitLaw.at_reset {L : ChannelUnit → Prop} (hL : UnitLaw L) : AllChannels L State.reset := fun c => by
  rw [State.reset_eq, fullResetState_channel]
  exact hL.reset

theorem freeLaw_reset : FreeLaw State.reset := fun c _ => by
  rw [State.reset_eq, fullResetState_channel]
  exact ⟨rfl, trivial⟩

/-! ## The values of a full reset (R186) -/

theorem channelAtReset_reset : ChannelAtReset ChannelUnit.reset := by
  refine ⟨rfl, rfl, ?_, rfl, rfl, rfl, rfl, rfl, blankSlots, rfl, rfl, rfl, rfl⟩
  rw [ChannelUnit.reset_digest, ChannelUnit.reset_config, ConfigRecord.reset_bytes]

section
variable (pending : List Instr) (inReset : Bool) (level0 level1 : Level)

theorem fullResetState_blocksAtReset : BlocksAtReset (fullResetState pending inReset level0 level1) := by
  refine ⟨fun p => Vector.getElem_replicate p.isLt, rfl, rfl, fun m => ?barred, rfl, rfl,
    fun m => ?reader, fun m => ?notice, fun m => ?port⟩
  case barred | reader | notice => cases m <;> rfl
  case port => cases m <;> exact ⟨rfl, rfl, rfl, rfl⟩

theorem fullResetState_atFullReset : AtFullReset (fullResetState pending inReset level0 level1) := by
  refine ⟨rfl, rfl, rfl, fullResetState_blocksAtReset .., fun c => ?_⟩
  rw [fullResetState_channel]
  exact channelAtReset_reset

end

/-- Settles O3: both commands put the whole part at one state, and differ in the levels that they keep. -/
theorem fullResetGivesResetValues : Obligations.FullResetGivesResetValues := by
  refine ⟨⟨fullResetState_atFullReset [] false .low .low, rfl⟩, fun source s => ?_, fun level0 level1 s hreset => ?_⟩
  · exact ⟨_, rfl, fullResetState_atFullReset .., rfl, rfl, rfl, rfl⟩
  · exact ⟨_, if_pos hreset, fullResetState_atFullReset .., rfl, rfl, rfl, rfl⟩

/-! ## The laws -/

/-- Settles O60: a part just reset has an empty table and log, nothing pending, and channels at rest. -/
theorem lawsAtReset : Obligations.LawsAtReset := by
  obtain ⟨hline, hmask⟩ := noticesLawful_iff.mp (fullResetState_noticesLawful (pending := []) (inReset := false)
    (level0 := .low) (level1 := .low))
  obtain ⟨hconfig, hcheck⟩ := allChannels_configAndCheckLaw_iff.mp configAndCheckLaw_driveLaw.unitLaw.at_reset
  exact ⟨hline, hmask, fullResetState_revokeLaw [] false .low .low, fullResetState_logLaw [] false .low .low,
    fullResetState_claimTableLaw [] false .low .low,
    NoneGrantable.of_empty rfl, rangeLaw_driveLaw.unitLaw.at_reset, hconfig, hcheck, courseLaw_unitLaw.at_reset, freeLaw_reset,
    fullResetState_portLaw [] false .low .low, nofun⟩

end Sys2Proof.Machine
end

section
/-!
Requests as a whole: what an answer leaves of the state (R174), the requests that only a holder may make (R4), and the commands that
name what is not at hand (log 1).
-/

namespace Sys2Proof.Machine

section
variable {i : Instr} {m : Master} {code : Byte} {s t : State}

/-! ## The answer of a request -/

/-- Past its head, a request leaves the state and the answer that its own rule gives. -/
theorem request_answers {take : State → State × Answer} (h : PassesHead i m s) (hcode : i.requestCode = some code)
    {a : Answer} (htake : take (s.endFrame m) = (t, a)) : request i m take s = .next (t.respond m code a) := by
  rw [request_passes h, htake, hcode]
  rfl

/-- An answer that is not OK comes with the state as it was (R174). -/
def AnswersWhole (s : State) (r : State × Answer) : Prop := r.2.status = .ok ∨ r.1 = s

theorem answersWhole_refuse (s : State) (status : Status) : AnswersWhole s (s, .refuse status) := .inr rfl

theorem answersWhole_ok (s t : State) (results : List Byte) : AnswersWhole s (t, .ok results) := .inl rfl

theorem answersWhole_ite {c : Prop} [Decidable c] {a b : State × Answer} (ha : AnswersWhole s a) (hb : AnswersWhole s b) :
    AnswersWhole s (if c then a else b) := by
  split
  · exact ha
  · exact hb

theorem refused_or_answersWhole {c : Prop} [Decidable c] {status : Status} {rest : State × Answer} (h : AnswersWhole s rest) :
    AnswersWhole s (if c then (s, .refuse status) else rest) := answersWhole_ite (answersWhole_refuse s status) h

theorem ownChannel_answersWhole {c : Ch} {take : State × Answer} (h : AnswersWhole s take) :
    AnswersWhole s (ownChannel m c s take) := answersWhole_ite h (answersWhole_refuse s _)

theorem ownSet_answersWhole {set : ChannelSet} {take : State × Answer} (h : AnswersWhole s take) :
    AnswersWhole s (ownSet m set s take) := answersWhole_ite h (answersWhole_refuse s _)

theorem ownClaim_answersWhole {number : Byte} {take : Pos → ClaimEntry → State × Answer}
    (h : ∀ p e, AnswersWhole s (take p e)) : AnswersWhole s (ownClaim m number s take) := by
  unfold ownClaim
  cases s.claims.find number with
  | none => exact answersWhole_refuse s _
  | some x => exact refused_or_answersWhole (answersWhole_ite (h x.1 x.2) (answersWhole_refuse s _))

theorem takeClaim_answersWhole (m : Master) (set : ChannelSet) (lease : Word16) (wait : Option WaitTimer)
    (expected : Option Word16) (s : State) : AnswersWhole s (takeClaim m set lease wait expected s) := by
  refine refused_or_answersWhole (refused_or_answersWhole ?_)
  cases s.claims.freePosition with
  | none => exact answersWhole_refuse s _
  | some p => exact answersWhole_ok ..

theorem takeWithdraw_answersWhole (m : Master) (number : Byte) (s : State) : AnswersWhole s (takeWithdraw m number s) := by
  unfold takeWithdraw
  cases s.claims.find number with
  | none => exact answersWhole_refuse s _
  | some x =>
    dsimp only
    cases x.2.state with
    | pending wait expected => exact answersWhole_ite (answersWhole_ok ..) (answersWhole_refuse s _)
    | held lease tag => exact refused_or_answersWhole (answersWhole_refuse s _)
    | offered lease tag target remaining =>
      exact answersWhole_ite (answersWhole_ok ..) (answersWhole_ite (answersWhole_ok ..) (answersWhole_refuse s _))

theorem takeOffer_answersWhole (m : Master) (number : Byte) (target : Master) (time : Word16) (s : State) :
    AnswersWhole s (takeOffer m number target time s) := by
  unfold takeOffer
  cases s.claims.find number with
  | none => exact answersWhole_refuse s _
  | some x =>
    refine refused_or_answersWhole ?_
    cases x.2.state with
    | held lease tag => exact answersWhole_ok ..
    | pending wait expected | offered lease tag target remaining => exact answersWhole_refuse s _

theorem takeAccept_answersWhole (m : Master) (number : Byte) (lease : Word16) (s : State) :
    AnswersWhole s (takeAccept m number lease s) := by
  unfold takeAccept
  cases s.claims.find number with
  | none => exact answersWhole_refuse s _
  | some x =>
    dsimp only
    cases x.2.state with
    | offered lease tag target remaining => exact refused_or_answersWhole (refused_or_answersWhole (answersWhole_ok ..))
    | pending wait expected | held lease tag => exact answersWhole_refuse s _

/-- Every request's own rule either answers OK, or refuses and changes nothing. -/
theorem exec_answersWhole (hcode : i.requestCode = some code) :
    ∃ n take, i.frameMaster = some n ∧ (∀ s, exec i s = request i n take s) ∧ ∀ s, AnswersWhole s (take s) := by
  cases i
  case claim => exact ⟨_, _, rfl, fun _ => rfl, takeClaim_answersWhole _ _ _ _ _⟩
  case renew | release =>
    exact ⟨_, _, rfl, fun _ => rfl, fun s => ownClaim_answersWhole fun _ _ => answersWhole_ok ..⟩
  case withdraw => exact ⟨_, _, rfl, fun _ => rfl, takeWithdraw_answersWhole _ _⟩
  case offer => exact ⟨_, _, rfl, fun _ => rfl, takeOffer_answersWhole _ _ _ _⟩
  case accept => exact ⟨_, _, rfl, fun _ => rfl, takeAccept_answersWhole _ _ _⟩
  case setRange | loadStep | setList =>
    exact ⟨_, _, rfl, fun _ => rfl, fun s => ownChannel_answersWhole <|
      refused_or_answersWhole <| refused_or_answersWhole <| answersWhole_ok ..⟩
  case setPolicy =>
    exact ⟨_, _, rfl, fun _ => rfl, fun s => ownChannel_answersWhole <| refused_or_answersWhole <| answersWhole_ok ..⟩
  case write =>
    exact ⟨_, _, rfl, fun _ => rfl, fun s => ownChannel_answersWhole <|
      refused_or_answersWhole <| refused_or_answersWhole <| refused_or_answersWhole <| answersWhole_ok ..⟩
  case clearFault => exact ⟨_, _, rfl, fun _ => rfl, fun s => ownChannel_answersWhole (answersWhole_ok ..)⟩
  case start =>
    exact ⟨_, _, rfl, fun _ => rfl, fun s => ownSet_answersWhole <|
      refused_or_answersWhole <| refused_or_answersWhole <| answersWhole_ok ..⟩
  case stop | pause | resume =>
    exact ⟨_, _, rfl, fun _ => rfl, fun s => ownSet_answersWhole <| refused_or_answersWhole <| answersWhole_ok ..⟩
  case proceed => exact ⟨_, _, rfl, fun _ => rfl, fun s => ownSet_answersWhole (answersWhole_ok ..)⟩
  case setTriggers | resetDevice =>
    exact ⟨_, _, rfl, fun _ => rfl, fun s => answersWhole_ite (answersWhole_ok ..) (answersWhole_refuse s _)⟩
  case readClaim => exact ⟨_, _, rfl, fun _ => rfl, fun s => .inl (takeReadClaim_ok _ _ s)⟩
  case nop | ackRevoke | readChannel | readConfig | readDigest | readStep | readLog | setLogThreshold | readNotices |
      ackNotices | setNoticeMask | readPortError | clearPortError | readTime =>
    exact ⟨_, _, rfl, fun _ => rfl, fun s => answersWhole_ok ..⟩
  all_goals nomatch hcode

theorem judged_answersWhole {take : State → State × Answer} (h : AnswersWhole s (take s)) :
    AnswersWhole s (judged i m take s) := refused_or_answersWhole (refused_or_answersWhole h)

theorem Status.code_ne_zero {status : Status} (h : status ≠ .ok) : status.code ≠ 0x00 := by
  cases status
  case ok => exact absurd rfl h
  all_goals decide

theorem Status.ne_ok_of_code {status : Status} (h : status.code ≠ 0x00) : status ≠ .ok := by
  rintro rfl
  exact h rfl

/-- The end of a frame and an answer are one change of the port. -/
theorem State.respond_endFrame (s : State) (m : Master) (code : Byte) (a : Answer) :
    (s.endFrame m).respond m code a =
      s.setPort m { s.port m with inProgress := false, response := sealFrame ([code, a.status.code] ++ a.results) } := by
  rw [State.respond, State.endFrame, State.setPort_setPort, State.port_setPort_same]
  rfl

end

/-- Settles O10: the head and every rule refuse with the state as it was, so that only the port has changed. -/
theorem refusedRequestChangesNothing : Obligations.RefusedRequestChangesNothing := by
  intro i m code s t hcode hframe hexec hstatus
  obtain ⟨n, take, hn, hrequest, hwhole⟩ := exec_answersWhole hcode
  obtain rfl := State.frameEnd_master_eq hframe hn
  rw [hrequest, request, atFrameEnd_taken hframe] at hexec
  obtain rfl := Host.Outcome.next.inj hexec
  rw [answered, State.respond_statusByte] at hstatus
  have hkept : (judged i n take (s.endFrame n)).1 = s.endFrame n :=
    (judged_answersWhole (hwhole _)).resolve_left (Status.ne_ok_of_code hstatus)
  rw [answered, hkept, State.respond_endFrame, State.port_setPort_same]

/-! ## Requests that only a holder may make (R4) -/

section
variable {m : Master} {s : State}

theorem ownChannel_notHolder {c : Ch} (take : State × Answer) (h : s.holder c ≠ some m) :
    ownChannel m c s take = (s, .refuse .notHolder) := if_neg h

theorem State.holdsAll_false {set : ChannelSet} {c : Ch} (hc : set.getLsbD c.val = true) (h : s.holder c ≠ some m) :
    ¬ s.holdsAll m set = true := fun hall => h (State.holdsAll_iff.mp hall c hc)

theorem ownSet_notHolder {set : ChannelSet} {c : Ch} (take : State × Answer) (hc : set.getLsbD c.val = true)
    (h : s.holder c ≠ some m) : ownSet m set s take = (s, .refuse .notHolder) := if_neg (State.holdsAll_false hc h)

end

/-- Settles O12: the check of the holder is the first of each of these rules. -/
theorem notHolderRefusals : Obligations.NotHolderRefusals := by
  intro i m code set c s hcode hset hpass hc hnot
  have hnot' : (s.endFrame m).holder c ≠ some m := hnot
  obtain ⟨n, take, hn, hrequest⟩ := exec_request hcode
  have hmaster := State.frameEnd_master_eq hpass.1 hn
  cases i
  case setRange | setPolicy | write | clearFault | loadStep | setList =>
    cases hn
    cases hset
    obtain rfl := hmaster
    rw [(mem_onlyChannel _ _).mp hc] at hnot'
    exact request_answers hpass hcode (ownChannel_notHolder _ hnot')
  case start | stop | pause | resume | proceed =>
    cases hn
    cases hset
    obtain rfl := hmaster
    exact request_answers hpass hcode (ownSet_notHolder _ hc hnot')
  case setTriggers | resetDevice =>
    cases hn
    cases hset
    obtain rfl := hmaster
    exact request_answers hpass hcode (if_neg (State.holdsAll_false hc hnot'))
  all_goals nomatch hset

/-! ## What is not at hand (log 1) -/

section
variable {i : Instr} {m : Master} {s : State}

theorem exec_notFrameEnd (hm : i.frameMaster = some m) (h : s.frameEnd m ≠ some i) : exec i s = .next s := by
  cases i
  case frameBegin | portClockEdge | waitExpiry | leaseExpiry | offerLapse | moveAdvance | settleExpiry | dwellExpiry |
      gapExpiry | triggerTransition | fullReset | fullResetEnd | timeTagAdvance => nomatch hm
  all_goals
    obtain rfl := Option.some.inj hm
    exact atFrameEnd_absent h

/-- An event that leaves the channel unit as it is, and asks for nothing, leaves the state. -/
theorem State.channelEvent_unchanged {c : Ch} {f : ChannelUnit → Progress} (h : f (s.channel c) = (s.channel c, [])) :
    s.channelEvent c f = s := by
  rw [State.channelEvent, h]
  exact s.setChannel_channel c

theorem State.channelTimer_unchanged {c : Ch} {f : ChannelUnit → Progress} (h : f (s.channel c) = (s.channel c, [])) :
    s.channelTimer c f = s := by
  unfold State.channelTimer
  split
  · rfl
  · exact State.channelEvent_unchanged h

theorem ChannelUnit.settleExpiry_unchecked {u : ChannelUnit} (tag : Word32) (raw : FaultSet)
    (h : ∀ ck, u.drive ≠ .checking ck) : u.settleExpiry tag raw = (u, []) := by
  unfold ChannelUnit.settleExpiry
  cases hd : u.drive with
  | steady | moving mv => rfl
  | checking ck => exact absurd hd (h ck)

theorem exec_expiry_absent {p : Pos} (h : s.entry p = none) :
    exec (.waitExpiry p) s = .next s ∧ exec (.leaseExpiry p) s = .next s ∧ exec (.offerLapse p) s = .next s := by
  refine ⟨?_, ?_, ?_⟩
  · show execWaitExpiry p s = _
    rw [execWaitExpiry, h]
    exact ite_self _
  · show execLeaseExpiry p s = _
    rw [execLeaseExpiry, h]
    exact ite_self _
  · show execOfferLapse p s = _
    rw [execOfferLapse, h]
    exact ite_self _

end

/-- Settles O4: each command looks for what it names before it does anything. -/
theorem notAtHandChangesNothing : Obligations.NotAtHandChangesNothing := by
  refine ⟨fun i s hheld hreset hend => exec_held hheld hreset hend, fun level0 level1 s hreset => ?notHeld,
    fun i m s hm h => exec_notFrameEnd hm h, fun p s h => exec_expiry_absent h, fun c raw s h => ?unchecked⟩
  case notHeld => exact if_neg (by rw [hreset]; exact Bool.false_ne_true)
  case unchecked =>
    exact congrArg Host.Outcome.next (State.channelTimer_unchanged (ChannelUnit.settleExpiry_unchecked _ raw h))

end Sys2Proof.Machine
end

section
/-!
The ports (R170): the lines of a port, and a frame that is clocked in bit by bit.
-/

namespace Sys2Proof.Machine

/-! ## The lines of a port -/

theorem byteAt_beyond {bytes : List Byte} {n : Nat} (h : bytes.length ≤ n) : byteAt bytes n = 0 :=
  List.getD_eq_default _ _ h

theorem exec_portClockEdge {m : Master} {edge : ClockEdge} {bit : Bool} {s : State} (hreset : s.inReset = false)
    (hprogress : (s.port m).inProgress = true) :
    exec (.portClockEdge m edge bit) s = .next (s.setPort m ((s.port m).clockEdge edge bit)) := if_pos ⟨hreset, hprogress⟩

theorem Port.sample_within {p : Port} (bit : Bool) (h : p.bitCount % 8 ≠ 7) :
    p.sample bit = { p with bitCount := p.bitCount + 1, partialByte := (p.partialByte <<< 1) ||| flagByte bit } := if_neg h

theorem Port.sample_last {p : Port} (bit : Bool) (h : p.bitCount % 8 = 7) :
    p.sample bit =
      { p with
        bitCount := p.bitCount + 1, bytes := p.bytes ++ [(p.partialByte <<< 1) ||| flagByte bit], partialByte := 0 } := if_pos h

/-- Settles O5: a rising edge samples, a falling edge presents, and neither does outside a frame. -/
theorem portLines : Obligations.PortLines := by
  intro m bit s hreset
  refine ⟨?begin, fun hprogress hbit => ?within, fun hprogress hbit => ?last, fun hprogress hcount => ?present,
    fun hprogress hcount hlength => ?beyond, fun hprogress edge => ?outside⟩
  case begin => exact if_neg (by rw [hreset]; exact Bool.false_ne_true)
  case within =>
    rw [exec_portClockEdge hreset hprogress]
    exact congrArg (fun p => Host.Outcome.next (s.setPort m p)) (Port.sample_within bit hbit)
  case last =>
    rw [exec_portClockEdge hreset hprogress]
    exact congrArg (fun p => Host.Outcome.next (s.setPort m p)) (Port.sample_last bit hbit)
  case present => exact exec_portClockEdge hreset hprogress
  case beyond =>
    rw [exec_portClockEdge hreset hprogress]
    have hbyte : byteAt (s.port m).outgoing ((s.port m).bitCount / 8) = 0 := byteAt_beyond (by omega)
    have hout : outgoingBit (s.port m).outgoing (s.port m).bitCount = false := by
      rw [outgoingBit, hbyte]
      exact BitVec.getLsbD_zero
    exact congrArg (fun b => Host.Outcome.next (s.setPort m { s.port m with dataOut := b })) hout
  case outside => exact if_neg fun h => Bool.false_ne_true (hprogress.symm.trans h.2)

/-! ## Encoding and decoding (R171, R172, R189, R190) -/

theorem byteAt_sealFrame (body : List Byte) {n : Nat} (h : n < 23) : byteAt (sealFrame body) n = byteAt body n := by
  have hpad : byteAt (sealFrame body) n = byteAt (padTo 23 body) n := by
    simp only [sealFrame, byteAt]
    rw [List.getD_append _ _ _ _ (by rw [padTo_length]; exact h)]
  rw [hpad]
  simp only [padTo, byteAt, List.getD_eq_getElem?_getD, List.getElem?_take_of_lt h]
  by_cases hn : n < body.length
  · rw [List.getElem?_append_left hn]
  · rw [List.getElem?_append_right (Nat.le_of_not_lt hn), List.getElem?_eq_none (Nat.le_of_not_lt hn), List.getElem?_replicate]
    split <;> rfl

/-- A request is spelled by the bytes of its body: the seal is for the port. -/
theorem decodeFrame_sealFrame (m : Master) (body : List Byte) : decodeFrame m (sealFrame body) = decodeFrame m body := by
  have h (n : Nat) (hn : n < 23) : byteAt (sealFrame body) n = byteAt body n := byteAt_sealFrame body hn
  simp only [decodeFrame, wordAt, h 0 (by decide), h 1 (by decide), h 2 (by decide), h 3 (by decide), h 4 (by decide),
    h 5 (by decide), h 6 (by decide), h 7 (by decide), h 8 (by decide), h 9 (by decide), Nat.reduceAdd]

theorem bytes16_join (w : Word16) : (hiByte w ++ loByte w : Word16) = w := by
  simp only [hiByte, loByte]
  apply BitVec.eq_of_getLsbD_eq
  intro i hi
  simp only [BitVec.getLsbD_append, BitVec.getLsbD_extractLsb']
  split
  · simp_all
  · rename_i h
    have e : 8 + (i - 8) = i := by omega
    have hlt : i - 8 < 8 := by omega
    simp [e, hlt]

/-- A frame spells the request of its code, or an unknown one. -/
theorem decodeFrame_requestCode (m : Master) (f : List Byte) :
    (decodeFrame m f).requestCode = some (byteAt f 0) ∨ decodeFrame m f = .unknownRequest m (byteAt f 0) := by
  unfold decodeFrame
  dsimp only
  split
  case h_35 => exact .inr rfl
  all_goals
    rename_i hcode
    exact .inl (congrArg some (BitVec.eq_of_toNat_eq hcode.symm))

theorem decodeFrame_frameBody {i : Instr} {m : Master} {body : List Byte} (hm : i.frameMaster = some m)
    (hbody : i.frameBody = some body) (hunknown : ∀ code, i = .unknownRequest m code → ∀ j : Instr, j.requestCode ≠ some code) :
    decodeFrame m body = i := by
  cases i
  case unknownRequest n code =>
    obtain rfl : n = m := Option.some.inj hm
    obtain rfl : [code] = body := Option.some.inj hbody
    exact (decodeFrame_requestCode n [code]).resolve_left (hunknown code rfl _)
  case frameBegin | frameError | waitExpiry | leaseExpiry | offerLapse | moveAdvance | settleExpiry | dwellExpiry | gapExpiry |
      triggerTransition | fullReset | fullResetEnd | timeTagAdvance | portClockEdge => nomatch hbody
  all_goals
    obtain rfl := Option.some.inj hm
    obtain rfl := Option.some.inj hbody
    simp [decodeFrame, wordAt, byteAt, bytes16, bytes16_join]

/-- Settles O6: the seal leaves every byte that decoding reads, and the byte 0 picks the request's own row. -/
theorem frameRoundTrip : Obligations.FrameRoundTrip := by
  intro i m body hm hbody hunknown
  have hframe : encodeFrame i = sealFrame body := by rw [encodeFrame, hbody]
  rw [hframe, decodeFrame_sealFrame]
  exact ⟨decodeFrame_frameBody hm hbody hunknown, sealFrame_whole body⟩

end Sys2Proof.Machine
end

section
/-!
A frame clocked in bit by bit (R170 to R172): eight bits make a byte, the bytes make the frame, and the falling edges between them
change the outgoing line only.
-/

namespace Sys2Proof.Machine

/-- One clock period at a port: the bit is sampled, and the next outgoing one presented. -/
def Port.period (p : Port) (bit : Bool) : Port := (p.sample bit).present

/-- A byte with one more bit shifted in at its low end. -/
def shiftIn (r : Byte) (bit : Bool) : Byte := (r <<< 1) ||| flagByte bit

/-- Eight bits shifted in make the byte that they are the bits of. -/
theorem foldl_shiftIn_bitsOf (b : Byte) : (bitsOf b).foldl shiftIn 0 = b := by
  revert b
  decide

section
variable {m : Master} {p : Port} {s : State}

theorem Port.period_inProgress (p : Port) (bit : Bool) : (p.period bit).inProgress = p.inProgress := by
  unfold Port.period Port.sample
  split <;> rfl

theorem runCommands_cons {c : Instr} {rest : List Instr} {t : State} (h : exec c s = .next t) :
    runCommands (c :: rest) s = runCommands rest t := by
  rw [runCommands, h]

theorem exec_portClockEdge_setPort (hreset : s.inReset = false) (hprogress : p.inProgress = true) (edge : ClockEdge)
    (bit : Bool) : exec (.portClockEdge m edge bit) (s.setPort m p) = .next (s.setPort m (p.clockEdge edge bit)) := by
  have hport : (s.setPort m p).port m = p := State.port_setPort_same s m p
  have hexec := exec_portClockEdge (s := s.setPort m p) (m := m) (edge := edge) (bit := bit) hreset (by rw [hport]; exact hprogress)
  rwa [hport, State.setPort_setPort] at hexec

/-- A clock period is one change of the port. -/
theorem runCommands_clockPeriod (hreset : s.inReset = false) (hprogress : p.inProgress = true) (bit : Bool)
    (rest : List Instr) :
    runCommands (clockPeriod m bit ++ rest) (s.setPort m p) = runCommands rest (s.setPort m (p.period bit)) := by
  have hsampled : (p.sample bit).inProgress = true := (p.period_inProgress bit).trans hprogress
  exact (runCommands_cons (exec_portClockEdge_setPort hreset hprogress .rising bit)).trans
    (runCommands_cons (exec_portClockEdge_setPort hreset hsampled .falling bit))

theorem runCommands_clockPeriods (hreset : s.inReset = false) (hprogress : p.inProgress = true) (bits : List Bool) :
    runCommands (bits.flatMap (clockPeriod m)) (s.setPort m p) = .next (s.setPort m (bits.foldl Port.period p)) := by
  induction bits generalizing p with
  | nil => rfl
  | cons bit rest ih =>
    rw [List.flatMap_cons, runCommands_clockPeriod hreset hprogress, List.foldl_cons]
    exact ih ((p.period_inProgress bit).trans hprogress)

/-! ## From bits to bytes -/

/-- A port in which everything stands but the outgoing line. -/
def Port.SameButLine (p q : Port) : Prop := ∃ line, q = { p with dataOut := line }

/-- Bits that do not complete a byte are shifted in. -/
theorem Port.foldl_period_within (bits : List Bool) (h : p.bitCount % 8 + bits.length < 8) :
    Port.SameButLine { p with bitCount := p.bitCount + bits.length, partialByte := bits.foldl shiftIn p.partialByte }
      (bits.foldl Port.period p) := by
  induction bits generalizing p with
  | nil => exact ⟨p.dataOut, rfl⟩
  | cons bit rest ih =>
    rw [List.length_cons] at h
    have hperiod : p.period bit =
        { p with bitCount := p.bitCount + 1, partialByte := shiftIn p.partialByte bit, dataOut := (p.period bit).dataOut } := by
      rw [Port.period, Port.sample_within bit (by omega)]
      rfl
    obtain ⟨line, e⟩ := ih (p := p.period bit) (by rw [hperiod]; show (p.bitCount + 1) % 8 + rest.length < 8; omega)
    refine ⟨line, ?_⟩
    rw [List.foldl_cons, e, hperiod]
    simp only [List.length_cons, List.foldl_cons, Port.mk.injEq, and_true, true_and]
    omega

/-- The bits of a byte but the last. -/
def leadingBits (b : Byte) : List Bool := [7, 6, 5, 4, 3, 2, 1].map b.getLsbD

theorem bitsOf_eq (b : Byte) : bitsOf b = leadingBits b ++ [b.getLsbD 0] := rfl

theorem leadingBits_length (b : Byte) : (leadingBits b).length = 7 := rfl

/-- The eight bits of a byte, from a byte boundary on, add that byte. -/
theorem Port.foldl_period_byte (b : Byte) (hcount : p.bitCount % 8 = 0) (hpartial : p.partialByte = 0) :
    Port.SameButLine { p with bitCount := p.bitCount + 8, bytes := p.bytes ++ [b] } ((bitsOf b).foldl Port.period p) := by
  have hbyte : shiftIn ((leadingBits b).foldl shiftIn p.partialByte) (b.getLsbD 0) = b := by
    have h := foldl_shiftIn_bitsOf b
    rwa [bitsOf_eq, List.foldl_append, ← hpartial] at h
  obtain ⟨line, e⟩ := Port.foldl_period_within (p := p) (leadingBits b) (by rw [hcount, leadingBits_length]; decide)
  rw [bitsOf_eq, List.foldl_append, e, List.foldl_cons, List.foldl_nil, Port.period,
    Port.sample_last _ (by rw [leadingBits_length]; show (p.bitCount + 7) % 8 = 7; omega)]
  refine ⟨outgoingBit p.outgoing (p.bitCount + 8), ?_⟩
  simp only [Port.present, Port.mk.injEq, and_true, true_and]
  exact ⟨rfl, congrArg (fun x => p.bytes ++ [x]) hbyte, hpartial.symm, rfl⟩

/-- The bytes of a frame, from a byte boundary on, are added one by one. -/
theorem Port.foldl_period_bytes (f : List Byte) (hcount : p.bitCount % 8 = 0) (hpartial : p.partialByte = 0) :
    Port.SameButLine { p with bitCount := p.bitCount + 8 * f.length, bytes := p.bytes ++ f }
      ((f.flatMap bitsOf).foldl Port.period p) := by
  induction f generalizing p with
  | nil =>
    refine ⟨p.dataOut, ?_⟩
    simp
  | cons b rest ih =>
    obtain ⟨line, e⟩ := Port.foldl_period_byte (p := p) b hcount hpartial
    rw [List.flatMap_cons, List.foldl_append, e]
    obtain ⟨line', e'⟩ := ih (p := { p with bitCount := p.bitCount + 8, bytes := p.bytes ++ [b], dataOut := line })
      (by show (p.bitCount + 8) % 8 = 0; omega) hpartial
    refine ⟨line', e'.trans ?_⟩
    simp only [List.length_cons, List.append_assoc, List.singleton_append, Port.mk.injEq, and_true, true_and]
    omega

end

/-- Settles O7: from the falling edge of select on, the port's bytes follow the bits, and only they decide the frame end. -/
theorem clockedFrameIsDelivered : Obligations.ClockedFrameIsDelivered := by
  intro m f s hreset hlength
  have hbegin : exec (.frameBegin m) s = .next (s.setPort m (s.port m).beginFrame) :=
    if_neg (by rw [hreset]; exact Bool.false_ne_true)
  obtain ⟨line, e⟩ := Port.foldl_period_bytes (p := (s.port m).beginFrame) f rfl rfl
  have hrun : runCommands (.frameBegin m :: clockFrame m f) s =
      .next (s.setPort m ((f.flatMap bitsOf).foldl Port.period (s.port m).beginFrame)) :=
    (runCommands_cons hbegin).trans (runCommands_clockPeriods hreset rfl _)
  have hcount : 0 + 8 * f.length = 192 := by omega
  refine ⟨_, hrun, ?_⟩
  rw [e, State.port_setPort_same]
  refine ⟨rfl, rfl, hcount, rfl, rfl, rfl, rfl, fun hcrc => ?good, fun hcrc => ?bad⟩
  case good =>
    simp [State.frameEnd, Port.frameError, Port.beginFrame, hreset, hlength, hcrc, Config.frameBits]
  case bad =>
    simp [State.frameEnd, Port.frameError, Port.beginFrame, hreset, hlength, hcrc, Config.frameBits]

end Sys2Proof.Machine
end

section
/-!
The claim table, request by request (R8, R12 to R26, R31 to R50): what each rule answers and does, by the entry it finds.
-/

namespace Sys2Proof.Machine

/-! ## One visit of grant evaluation (R12 to R14) -/

section
variable {s : State} {p : Pos} {e : ClaimEntry}

theorem State.visit_notPending (h : ∀ e, s.entry p = some e → e.isPending = false) : s.visit p = s := by
  unfold State.visit
  cases he : s.entry p with
  | none => rfl
  | some e =>
    dsimp only
    cases hstate : e.state with
    | pending wait expected =>
      have hpending := h e he
      rw [ClaimEntry.isPending, ClaimEntry.inForce, hstate] at hpending
      cases hpending
    | held lease tag | offered lease tag target remaining => rfl

theorem State.digestDiffers_iff {set : ChannelSet} {expected : Option Word16} :
    s.digestDiffers set expected = true ↔ ∃ d, expected = some d ∧ d ≠ s.combinedDigest set := by
  cases expected with
  | none => exact iff_of_false nofun fun ⟨d, hd, _⟩ => nomatch hd
  | some d => simp [State.digestDiffers]

variable {wait : Option WaitTimer} {expected : Option Word16}

theorem State.visit_notGrantable (he : s.entry p = some e) (hstate : e.state = .pending wait expected)
    (h : ¬ s.grantable p e = true) : s.visit p = s := by
  rw [State.visit_pending he hstate, if_neg h]

theorem State.visit_refuses (he : s.entry p = some e) (hstate : e.state = .pending wait expected)
    (h : s.grantable p e = true) (hdigest : s.digestDiffers e.set expected = true) : s.visit p = s.refuseClaim p e .digest := by
  rw [State.visit_pending he hstate, if_pos h, if_pos hdigest]

theorem State.visit_grants (he : s.entry p = some e) (hstate : e.state = .pending wait expected)
    (h : s.grantable p e = true) (hdigest : ¬ s.digestDiffers e.set expected = true) : s.visit p = s.grant p e := by
  rw [State.visit_pending he hstate, if_pos h, if_neg hdigest]

theorem State.grantEvaluation_cons {rest : List Pos} (h : s.claims.order = p :: rest) :
    s.grantEvaluation = rest.foldl State.visit (s.visit p) := by
  rw [State.grantEvaluation, h, List.foldl_cons]

end

/-- Settles O24: the walk is a fold over the order, and a visit is decided by `grantable` and then by the digest. -/
theorem grantVisit : Obligations.GrantVisit := by
  refine ⟨fun s h => State.grantEvaluation_empty h, fun s p rest h => State.grantEvaluation_cons h,
    fun s p h => State.visit_notPending h, fun s p e wait expected he hstate =>
      ⟨fun h => ?stays, fun hfree hfirst hdigest => ?refused, fun hfree hfirst hdigest => ?granted⟩⟩
  case stays => exact State.visit_notGrantable he hstate (mt State.grantable_iff.mp h)
  case refused =>
    exact State.visit_refuses he hstate (State.grantable_iff.mpr ⟨hfree, hfirst⟩) (State.digestDiffers_iff.mpr hdigest)
  case granted =>
    refine State.visit_grants he hstate (State.grantable_iff.mpr ⟨hfree, hfirst⟩) fun hdiffers => ?_
    obtain ⟨d, hd, hne⟩ := State.digestDiffers_iff.mp hdiffers
    exact hne (hdigest d hd)

/-! ## Lease renewal (R19) -/

theorem ClaimEntry.renew_pending {e : ClaimEntry} (h : e.inForce = false) : e.renew = e := by
  rcases e with ⟨n, m, set, period, _ | _ | _⟩
  · rfl
  · cases h
  · cases h

theorem ClaimEntry.renew_held {e : ClaimEntry} {lease : Word16} {tag : Word32} (h : e.state = .held lease tag) :
    e.renew = { e with state := .held e.leasePeriod tag } := by
  rw [ClaimEntry.renew, h]

theorem ClaimEntry.renew_offered {e : ClaimEntry} {lease : Word16} {tag : Word32} {target : Master} {remaining : Word16}
    (h : e.state = .offered lease tag target remaining) :
    e.renew = { e with state := .offered e.leasePeriod tag target remaining } := by
  rw [ClaimEntry.renew, h]

theorem ClaimEntry.renewFor_unconcerned {m : Master} {set : ChannelSet} {e : ClaimEntry}
    (h : e.inForce = false ∨ e.master ≠ m ∨ e.set &&& set = 0) : e.renewFor m set = e := by
  unfold ClaimEntry.renewFor
  split
  case isFalse => rfl
  case isTrue hconcerned =>
    obtain ⟨hm, hset⟩ := hconcerned
    exact ClaimEntry.renew_pending (h.resolve_right (not_or.mpr ⟨not_not_intro hm, hset⟩))

/-- Settles O25: the table's entries are mapped one by one, and an entry that is not concerned is mapped to itself. -/
theorem leaseRenewal : Obligations.LeaseRenewal := by
  intro s m set
  have hentry (p : Pos) : (mapVector (Option.map (ClaimEntry.renewFor m set)) s.claims.entries)[p] =
      (s.entry p).map (ClaimEntry.renewFor m set) := mapVector_get _ _ p
  refine ⟨_, rfl, fun p h => ?free, fun p e he => ⟨fun h => ?unconcerned, fun hm hset =>
    ⟨fun lease tag h => ?held, fun lease tag target remaining h => ?offered⟩⟩⟩
  case free => rw [hentry, h, Option.map_none]
  case unconcerned => rw [hentry, he, Option.map_some, ClaimEntry.renewFor_unconcerned h]
  case held => rw [hentry, he, Option.map_some, ClaimEntry.renewFor, if_pos ⟨hm, hset⟩, ClaimEntry.renew_held h]
  case offered => rw [hentry, he, Option.map_some, ClaimEntry.renewFor, if_pos ⟨hm, hset⟩, ClaimEntry.renew_offered h]

/-! ## The requests on one's own claim (R18, R21) -/

section
variable {m : Master} {number : Byte} {s : State} {p : Pos} {e : ClaimEntry} {take : Pos → ClaimEntry → State × Answer}

theorem ownClaim_noClaim (h : s.claims.find number = none) : ownClaim m number s take = (s, .refuse .noClaim) := by
  rw [ownClaim, h]

theorem ownClaim_notHolder (h : s.claims.find number = some (p, e)) (hm : e.master ≠ m) :
    ownClaim m number s take = (s, .refuse .notHolder) := by
  rw [ownClaim, h]
  exact if_pos hm

theorem ownClaim_pending (h : s.claims.find number = some (p, e)) (hm : e.master = m) (hforce : e.inForce = false) :
    ownClaim m number s take = (s, .refuse .wrongState) := by
  rw [ownClaim, h]
  dsimp only
  rw [if_neg (not_not_intro hm), if_neg (by rw [hforce]; exact Bool.false_ne_true)]

theorem ownClaim_inForce (h : s.claims.find number = some (p, e)) (hm : e.master = m) (hforce : e.inForce = true) :
    ownClaim m number s take = take p e := by
  rw [ownClaim, h]
  dsimp only
  rw [if_neg (not_not_intro hm), if_pos hforce]

theorem ClaimEntry.inForce_pending {wait : Option WaitTimer} {expected : Option Word16} (h : e.state = .pending wait expected) :
    e.inForce = false := by
  rw [ClaimEntry.inForce, h]

theorem ClaimEntry.inForce_held {lease : Word16} {tag : Word32} (h : e.state = .held lease tag) : e.inForce = true := by
  rw [ClaimEntry.inForce, h]

theorem ClaimEntry.inForce_offered {lease : Word16} {tag : Word32} {target : Master} {remaining : Word16}
    (h : e.state = .offered lease tag target remaining) : e.inForce = true := by
  rw [ClaimEntry.inForce, h]

end

/-- Settles O16: RENEW is its own-claim checks, and then the renewal of the one entry. -/
theorem renewOutcomes : Obligations.RenewOutcomes := by
  refine fun m number s hpass => ⟨fun h => request_answers hpass rfl (ownClaim_noClaim h), fun p e h =>
    ⟨fun hm => request_answers hpass rfl (ownClaim_notHolder h hm),
      fun hm wait expected hstate => request_answers hpass rfl (ownClaim_pending h hm (ClaimEntry.inForce_pending hstate)),
      fun hm lease tag hstate => ?held, fun hm lease tag target remaining hstate => ?offered⟩⟩
  case held =>
    rw [← ClaimEntry.renew_held hstate]
    exact request_answers hpass rfl (ownClaim_inForce h hm (ClaimEntry.inForce_held hstate))
  case offered =>
    rw [← ClaimEntry.renew_offered hstate]
    exact request_answers hpass rfl (ownClaim_inForce h hm (ClaimEntry.inForce_offered hstate))

/-- Settles O17: RELEASE is its own-claim checks, and then the orders, the removal, the record and the walk. -/
theorem releaseOutcomes : Obligations.ReleaseOutcomes := by
  refine fun m number mode s hpass => ⟨fun h => request_answers hpass rfl (ownClaim_noClaim h), fun p e h =>
    ⟨fun hm => request_answers hpass rfl (ownClaim_notHolder h hm),
      fun hm hforce => request_answers hpass rfl (ownClaim_pending h hm hforce), fun hm hforce => ?taken⟩⟩
  case taken =>
    have hclaims : ((s.endFrame m).orderAll e.set (ChannelUnit.releaseOrder (releaseModeOf mode))).claims = s.claims :=
      State.orderAll_claims ..
    refine request_answers hpass rfl ((ownClaim_inForce (s := s.endFrame m) h hm hforce).trans ?_)
    dsimp only
    rw [hclaims]
    rfl

/-! ## Withdraw, offer and accept (R25, R42, R46) -/

/-- Settles O18: the outcomes of WITHDRAW are a table over the state of the entry and the part of the sender in it. -/
theorem withdrawOutcomes : Obligations.WithdrawOutcomes := by
  intro m number s hpass
  have hfound {p : Pos} {e : ClaimEntry} (h : s.claims.find number = some (p, e)) :
      (s.endFrame m).claims.find number = some (p, e) := h
  refine ⟨fun h => ?none, fun p e h => ⟨fun hm wait expected hstate => ?pending, fun hm hoffered => ?notHolder,
    fun hm lease tag hstate => ?held, fun hm lease tag target remaining hstate => ?cancel,
    fun hm lease tag remaining hstate => ?decline⟩⟩
  case none =>
    have h' : (s.endFrame m).claims.find number = none := h
    exact request_answers hpass rfl (by rw [takeWithdraw, h']; rfl)
  case pending =>
    refine request_answers hpass rfl ?_
    simp only [takeWithdraw, hfound h, hstate, if_pos hm]
    rfl
  case notHolder =>
    refine request_answers hpass rfl (?_ : _ = (s.endFrame m, Answer.refuse .notHolder))
    rw [takeWithdraw, hfound h]
    dsimp only
    cases hstate : e.state with
    | pending wait expected | held lease tag => exact if_neg hm
    | offered lease tag target remaining =>
      have htarget : target ≠ m := fun ht => hoffered lease tag remaining (by rw [hstate, ht])
      exact (if_neg hm).trans (if_neg htarget)
  case held =>
    refine request_answers hpass rfl (?_ : _ = (s.endFrame m, Answer.refuse .wrongState))
    simp only [takeWithdraw, hfound h, hstate, if_pos hm]
  case cancel =>
    refine request_answers hpass rfl ?_
    simp only [takeWithdraw, hfound h, hstate, if_pos hm]
    rfl
  case decline =>
    refine request_answers hpass rfl ?_
    simp only [takeWithdraw, hfound h, hstate, if_neg hm, if_true]
    rfl

/-- Settles O19: OFFER needs an entry that its sender holds and has not offered. -/
theorem offerOutcomes : Obligations.OfferOutcomes := by
  intro m number target time s hpass
  have hfound {p : Pos} {e : ClaimEntry} (h : s.claims.find number = some (p, e)) :
      (s.endFrame m).claims.find number = some (p, e) := h
  refine ⟨fun h => ?none, fun p e h => ⟨fun hm => ?notHolder, fun hm hheld => ?wrongState,
    fun hm heir lease tag hheir hstate => ?taken⟩⟩
  case none =>
    have h' : (s.endFrame m).claims.find number = none := h
    exact request_answers hpass rfl (by rw [takeOffer, h']; rfl)
  case notHolder =>
    refine request_answers hpass rfl (?_ : _ = (s.endFrame m, Answer.refuse .notHolder))
    rw [takeOffer, hfound h]
    exact if_pos hm
  case wrongState =>
    refine request_answers hpass rfl (?_ : _ = (s.endFrame m, Answer.refuse .wrongState))
    rw [takeOffer, hfound h]
    refine (if_neg (not_not_intro hm)).trans ?_
    cases hstate : e.state with
    | held lease tag => exact absurd hstate (hheld lease tag)
    | pending wait expected | offered lease tag target remaining => rfl
  case taken =>
    subst hheir
    refine request_answers hpass rfl ?_
    simp only [takeOffer, hfound h, hstate, hm, ne_eq, not_true_eq_false, if_false, masterOf_code]
    rfl

/-- Settles O20: ACCEPT needs an entry that is offered to its sender, who waits for none of its channels. -/
theorem acceptOutcomes : Obligations.AcceptOutcomes := by
  intro m number lease s hpass
  have hfound {p : Pos} {e : ClaimEntry} (h : s.claims.find number = some (p, e)) :
      (s.endFrame m).claims.find number = some (p, e) := h
  refine ⟨fun h => ?none, fun p e h => ⟨fun hoffered => ?noOffer, fun old tag remaining hstate =>
    ⟨fun hwaits => ?busy, fun hwaits => ?taken⟩⟩⟩
  case none =>
    have h' : (s.endFrame m).claims.find number = none := h
    exact request_answers hpass rfl (by rw [takeAccept, h']; rfl)
  case noOffer =>
    refine request_answers hpass rfl (?_ : _ = (s.endFrame m, Answer.refuse .noOffer))
    rw [takeAccept, hfound h]
    dsimp only
    cases hstate : e.state with
    | pending wait expected | held lease tag => rfl
    | offered old tag target remaining =>
      exact if_pos fun ht => hoffered old tag remaining (by rw [hstate, ht])
  case busy =>
    have hon : (s.endFrame m).claims.waitsOn m e.set = true := ClaimTable.waitsOn_iff.mpr hwaits
    refine request_answers hpass rfl (?_ : _ = (s.endFrame m, Answer.refuse .busy))
    simp only [takeAccept, hfound h, hstate, hon, ne_eq, not_true_eq_false, if_false, if_true]
  case taken =>
    have hon : ¬ (s.endFrame m).claims.waitsOn m e.set = true := fun hon => hwaits (ClaimTable.waitsOn_iff.mp hon)
    refine request_answers hpass rfl ?_
    simp only [takeAccept, hfound h, hstate, if_neg hon, ne_eq, not_true_eq_false, if_false]
    rfl

/-! ## The expiries (R17, R32, R45) -/

section
variable {s : State} {p : Pos} {e : ClaimEntry}

theorem exec_waitExpiry (hreset : s.inReset = false) (he : s.entry p = some e) :
    exec (.waitExpiry p) s =
      if e.waitDue then .next (s.refuseClaim p e .timeout).grantEvaluation else .next s := by
  show execWaitExpiry p s = _
  rw [execWaitExpiry, hreset, he]
  rfl

theorem exec_leaseExpiry (hreset : s.inReset = false) (he : s.entry p = some e) :
    exec (.leaseExpiry p) s = if e.leaseDue then .next (revokeClaim p e s) else .next s := by
  show execLeaseExpiry p s = _
  rw [execLeaseExpiry, hreset, he]
  rfl

theorem exec_offerLapse_offered (hreset : s.inReset = false) (he : s.entry p = some e) {lease : Word16} {tag : Word32}
    {target : Master} {remaining : Word16} (hstate : e.state = .offered lease tag target remaining) :
    exec (.offerLapse p) s = if remaining = 0 then .next (endOffer p e lease tag .lapsed s) else .next s := by
  show execOfferLapse p s = _
  rw [execOfferLapse, hreset, he]
  simp only [hstate, ClaimEntry.offerDue, Bool.false_eq_true, if_false, decide_eq_true_iff]

theorem ClaimEntry.waitDue_iff :
    e.waitDue = true ↔ ∃ limit expected, e.state = .pending (some { limit := limit, remaining := 0 }) expected := by
  unfold ClaimEntry.waitDue
  cases e.state with
  | pending wait expected =>
    cases wait with
    | none => exact iff_of_false nofun fun ⟨_, _, h⟩ => nomatch h
    | some w =>
      obtain ⟨limit, remaining⟩ := w
      rw [decide_eq_true_iff]
      constructor
      · rintro rfl
        exact ⟨limit, expected, rfl⟩
      · rintro ⟨_, _, h⟩
        cases h
        rfl
  | held lease tag | offered lease tag target remaining => exact iff_of_false nofun fun ⟨_, _, h⟩ => nomatch h

end

/-- Settles O22: each of the two timers is due exactly when nothing of it remains. -/
theorem waitAndOfferExpiries : Obligations.WaitAndOfferExpiries := by
  refine fun p e s hreset he => ⟨fun limit expected hstate => ?refused, fun lease tag target hstate => ?lapsed,
    fun hwait => ?waits, fun hoffer => ?offered⟩
  case refused => exact (exec_waitExpiry hreset he).trans (if_pos (ClaimEntry.waitDue_iff.mpr ⟨limit, expected, hstate⟩))
  case lapsed => exact (exec_offerLapse_offered hreset he hstate).trans (if_pos rfl)
  case waits =>
    refine (exec_waitExpiry hreset he).trans (if_neg fun hdue => ?_)
    obtain ⟨limit, expected, hstate⟩ := ClaimEntry.waitDue_iff.mp hdue
    exact hwait limit expected hstate
  case offered =>
    cases hstate : e.state with
    | offered lease tag target remaining =>
      refine (exec_offerLapse_offered hreset he hstate).trans (if_neg fun hzero => ?_)
      exact hoffer lease tag target (by rw [hstate, hzero])
    | pending wait expected | held lease tag =>
      show execOfferLapse p s = _
      rw [execOfferLapse, hreset, he]
      dsimp only
      rw [hstate]
      rfl

/-- Settles O23: an expiry is due exactly when the lease has run out, and then revokes. -/
theorem leaseExpiryRevokes : Obligations.LeaseExpiryRevokes := by
  refine fun p e s hreset he => ⟨fun hlease => ?revoked, fun hlease => ?none⟩
  case revoked =>
    have hdue : e.leaseDue = true := decide_eq_true hlease
    rw [exec_leaseExpiry hreset he, if_pos hdue, revokeClaim]
    dsimp only
    rw [State.orderAll_claims]
    rfl
  case none => exact (exec_leaseExpiry hreset he).trans (if_neg fun hdue => hlease (of_decide_eq_true hdue))

/-! ## The checks of a CLAIM (R8) -/

section
variable {m : Master} {set : ChannelSet} {lease : Word16} {wait : Option WaitTimer} {expected : Option Word16} {s : State}

theorem overlaps_iff : ((channelsOf set).any fun c => decide (s.holder c = some m)) = true ↔
    ∃ c : Ch, set.getLsbD c.val = true ∧ s.holder c = some m := by
  simp only [List.any_eq_true, mem_channelsOf, decide_eq_true_iff]

theorem takeClaim_busy (hwaits : ∃ p e, s.entry p = some e ∧ e.isPending = true ∧ e.master = m) :
    takeClaim m set lease wait expected s = (s, .refuse .busy) := if_pos (ClaimTable.hasPending_iff.mpr hwaits)

theorem takeClaim_overlap (hwaits : ¬ ∃ p e, s.entry p = some e ∧ e.isPending = true ∧ e.master = m)
    (hoverlaps : ∃ c : Ch, set.getLsbD c.val = true ∧ s.holder c = some m) :
    takeClaim m set lease wait expected s = (s, .refuse .overlap) :=
  (if_neg fun h => hwaits (ClaimTable.hasPending_iff.mp h)).trans (if_pos (overlaps_iff.mpr hoverlaps))

theorem takeClaim_tableFull (hwaits : ¬ ∃ p e, s.entry p = some e ∧ e.isPending = true ∧ e.master = m)
    (hoverlaps : ¬ ∃ c : Ch, set.getLsbD c.val = true ∧ s.holder c = some m) (hfull : ∀ p, s.entry p ≠ none) :
    takeClaim m set lease wait expected s = (s, .refuse .tableFull) := by
  rw [takeClaim, if_neg fun h => hwaits (ClaimTable.hasPending_iff.mp h), if_neg fun h => hoverlaps (overlaps_iff.mp h),
    ClaimTable.freePosition_none.mpr hfull]

end

/-- Settles O14: the three checks stand in R8's order. -/
theorem claimRefusals : Obligations.ClaimRefusals := by
  refine fun m set lease wait presence digest s hpass => ⟨fun hwaits => ?busy, fun hwaits hoverlaps => ?overlap,
    fun hwaits hoverlaps hfull => ?full⟩
  case busy => exact request_answers hpass rfl (takeClaim_busy (s := s.endFrame m) hwaits)
  case overlap => exact request_answers hpass rfl (takeClaim_overlap (s := s.endFrame m) hwaits hoverlaps)
  case full => exact request_answers hpass rfl (takeClaim_tableFull (s := s.endFrame m) hwaits hoverlaps hfull)

end Sys2Proof.Machine
end

section
/-!
A CLAIM that is taken (R6, R9, R10): its entry at the tail of the order, the walk over it, and the answer read from what the walk
leaves.
-/

namespace Sys2Proof.Machine

section
variable {m : Master} {set : ChannelSet} {lease : Word16} {wait : Option WaitTimer} {expected : Option Word16} {s : State} {p : Pos}

theorem takeClaim_taken (hwaits : ∀ q e, s.entry q = some e → e.isPending = true → e.master ≠ m)
    (hoverlaps : ∀ c : Ch, set.getLsbD c.val = true → s.holder c ≠ some m) (hfree : s.entry p = none)
    (hlowest : ∀ q : Pos, q < p → s.entry q ≠ none) :
    takeClaim m set lease wait expected s =
      ((s.setClaims (s.claims.create p
          { number := s.claims.newNumber, master := m, set := set, leasePeriod := lease, state := .pending wait expected
            })).grantEvaluation,
        .ok (claimResults p s.claims.newNumber
          (s.setClaims (s.claims.create p
            { number := s.claims.newNumber, master := m, set := set, leasePeriod := lease, state := .pending wait expected
              })).grantEvaluation)) := by
  have hbusy : ¬ s.claims.hasPending m = true := fun h => by
    obtain ⟨q, e, he, hpending, hm⟩ := ClaimTable.hasPending_iff.mp h
    exact hwaits q e he hpending hm
  have hoverlap : ¬ ((channelsOf set).any fun c => decide (s.holder c = some m)) = true := fun h => by
    obtain ⟨c, hc, hm⟩ := overlaps_iff.mp h
    exact hoverlaps c hc hm
  rw [takeClaim, if_neg hbusy, if_neg hoverlap, ClaimTable.freePosition_some.mpr ⟨hfree, hlowest⟩]

/-! ## The answer (R10) -/

theorem claimResults_held {e : ClaimEntry} {number : Byte} {period : Word16} {tag : Word32} (he : s.entry p = some e)
    (hstate : e.state = .held period tag) : claimResults p number s = [number, 0x02] ++ bytes32 tag ++ bytes16 period := by
  rw [claimResults, he]
  dsimp only
  rw [hstate]

theorem claimResults_pending {e : ClaimEntry} {number : Byte} (he : s.entry p = some e)
    (hstate : e.state = .pending wait expected) :
    claimResults p number s = [number, 0x01, BitVec.ofNat 8 (s.claims.order.idxOf p + 1)] := by
  rw [claimResults, he]
  dsimp only
  rw [hstate]
  rfl

theorem claimResults_refused {number : Byte} (he : s.entry p = none) : claimResults p number s = [number, 0x04, 0x02] := by
  rw [claimResults, he]

/-! ## With no claim waiting (R13, R14) -/

theorem ClaimTable.setEntry_setEntry (t : ClaimTable) (p : Pos) (x y : Option ClaimEntry) :
    (t.setEntry p x).setEntry p y = t.setEntry p y := by
  simp [ClaimTable.setEntry]

theorem ClaimTable.setEntry_self {t : ClaimTable} {p : Pos} {x : Option ClaimEntry} (h : t.entries[p] = x) :
    t.setEntry p x = t := by
  subst h
  simp [ClaimTable.setEntry]

theorem ClaimTable.dequeue_only {t : ClaimTable} {p : Pos} (h : t.order = [p]) : t.dequeue p = { t with order := [] } := by
  rw [ClaimTable.dequeue, h]
  simp

/-- A waiting claim frees and holds no channel. -/
theorem State.holder_create {e : ClaimEntry} (hfree : s.entry p = none) (hpending : e.inForce = false) (c : Ch) :
    (s.setClaims (s.claims.create p e)).holder c = none ↔ s.holder c = none := by
  have hentry (q : Pos) : (s.setClaims (s.claims.create p e)).entry q = if q = p then some e else s.entry q :=
    State.setEntry_entry s p q (some e)
  simp only [State.holder_eq_none, hentry]
  constructor
  · intro h q f hf hforce
    refine h q f ?_ hforce
    rw [if_neg fun hq => ?_]
    · exact hf
    · rw [hq, hfree] at hf
      cases hf
  · intro h q f hf hforce
    split at hf
    · cases hf
      exact absurd (hforce.symm.trans hpending) nofun
    · exact h q f hf hforce

/-- With nothing else in the order, the walk is the one visit. -/
theorem State.grantEvaluation_create (horder : s.claims.order = []) (e : ClaimEntry) :
    (s.setClaims (s.claims.create p e)).grantEvaluation = (s.setClaims (s.claims.create p e)).visit p := by
  have h : (s.setClaims (s.claims.create p e)).claims.order = [p] := by
    show s.claims.order ++ [p] = [p]
    rw [horder]
    rfl
  rw [State.grantEvaluation_cons h]
  rfl

section
variable {e : ClaimEntry} (hfree : s.entry p = none) (horder : s.claims.order = [])
  (hstate : e.state = .pending wait expected)
include hfree horder hstate

/-- The one claim that waits is grantable when its channels are free. -/
theorem State.grantable_create :
    (s.setClaims (s.claims.create p e)).grantable p e = true ↔ ∀ c : Ch, e.set.getLsbD c.val = true → s.holder c = none := by
  have hfirst : (s.setClaims (s.claims.create p e)).claims.order.takeWhile (fun q => q ≠ p) = [] := by
    show (s.claims.order ++ [p]).takeWhile (fun q => q ≠ p) = []
    rw [horder]
    simp
  rw [State.grantable_iff, hfirst]
  simp only [State.holder_create hfree (ClaimEntry.inForce_pending hstate), List.not_mem_nil, false_implies, implies_true,
    and_true]

theorem State.grantEvaluation_create_granted (hall : ∀ c : Ch, e.set.getLsbD c.val = true → s.holder c = none)
    (hdigest : ∀ d, expected = some d → d = s.combinedDigest e.set) :
    (s.setClaims (s.claims.create p e)).grantEvaluation =
      ((s.setClaims { s.claims.setEntry p (some { e with state := .held e.leasePeriod s.timeTag }) with
          nextNumber := numberAfter e.number }).raise e.master .granted).append (.claim e.master e.number e.set .granted) := by
  have he : (s.setClaims (s.claims.create p e)).entry p = some e :=
    (State.setEntry_entry s p p (some e)).trans (if_pos rfl)
  rw [State.grantEvaluation_create horder e,
    State.visit_grants he hstate ((State.grantable_create hfree horder hstate).mpr hall) fun hdiffers => by
      obtain ⟨d, hd, hne⟩ := State.digestDiffers_iff.mp hdiffers
      exact hne (hdigest d hd)]
  have htable : ((s.claims.create p e).setEntry p (some { e with state := .held e.leasePeriod s.timeTag })).dequeue p =
      { s.claims.setEntry p (some { e with state := .held e.leasePeriod s.timeTag }) with
        nextNumber := numberAfter e.number } := by
    simp [ClaimTable.create, ClaimTable.setEntry, ClaimTable.dequeue, horder]
  exact congrArg (fun t => ((s.setClaims t).raise e.master .granted).append (.claim e.master e.number e.set .granted)) htable

theorem State.grantEvaluation_create_refused (hall : ∀ c : Ch, e.set.getLsbD c.val = true → s.holder c = none)
    (hdigest : ∃ d, expected = some d ∧ d ≠ s.combinedDigest e.set) :
    (s.setClaims (s.claims.create p e)).grantEvaluation =
      ((s.setClaims { s.claims with nextNumber := numberAfter e.number }).raise e.master .refused).append
        (.claim e.master e.number e.set (.refused .digest)) := by
  have he : (s.setClaims (s.claims.create p e)).entry p = some e :=
    (State.setEntry_entry s p p (some e)).trans (if_pos rfl)
  rw [State.grantEvaluation_create horder e,
    State.visit_refuses he hstate ((State.grantable_create hfree horder hstate).mpr hall)
      (State.digestDiffers_iff.mpr hdigest)]
  have hself : s.claims.entries.set p none = s.claims.entries :=
    congrArg ClaimTable.entries (ClaimTable.setEntry_self (t := s.claims) hfree)
  have htable : (s.claims.create p e).remove p = { s.claims with nextNumber := numberAfter e.number } := by
    simp [ClaimTable.create, ClaimTable.remove, ClaimTable.setEntry, ClaimTable.dequeue, horder, hself]
  exact congrArg (fun t => ((s.setClaims t).raise e.master .refused).append
    (.claim e.master e.number e.set (.refused .digest))) htable

theorem State.grantEvaluation_create_waits (hheld : ¬ ∀ c : Ch, e.set.getLsbD c.val = true → s.holder c = none) :
    (s.setClaims (s.claims.create p e)).grantEvaluation =
      s.setClaims { s.claims.setEntry p (some e) with order := [p], nextNumber := numberAfter e.number } := by
  have he : (s.setClaims (s.claims.create p e)).entry p = some e :=
    (State.setEntry_entry s p p (some e)).trans (if_pos rfl)
  rw [State.grantEvaluation_create horder e,
    State.visit_notGrantable he hstate (mt (State.grantable_create hfree horder hstate).mp hheld), ClaimTable.create, horder]
  rfl

end

end

/-- The claim that a CLAIM adds to the table. -/
def newClaim (m : Master) (set lease wait : Word16) (presence : Byte) (digest : Word16) (s : State) : ClaimEntry where
  number := s.claims.newNumber
  master := m
  set := channelSetOf set
  leasePeriod := lease
  state := .pending (waitOf wait) (expectedOf presence digest)

section
variable {m : Master} {set lease wait : Word16} {presence : Byte} {digest : Word16} {s : State} {p : Pos}

/-- A CLAIM past its checks is answered from what grant evaluation leaves. -/
theorem exec_claim_taken (hpass : PassesHead (.claim m set lease wait presence digest) m s)
    (hwaits : ∀ q e, s.entry q = some e → e.isPending = true → e.master ≠ m)
    (hoverlaps : ∀ c : Ch, (channelSetOf set).getLsbD c.val = true → s.holder c ≠ some m) (hfree : s.entry p = none)
    (hlowest : ∀ q : Pos, q < p → s.entry q ≠ none) {t : State} {results : List Byte}
    (ht : ((s.endFrame m).setClaims
      (s.claims.create p (newClaim m set lease wait presence digest s))).grantEvaluation = t)
    (hresults : claimResults p s.claims.newNumber t = results) :
    exec (.claim m set lease wait presence digest) s = .next (t.respond m 0x10 (.ok results)) := by
  subst ht
  subst hresults
  exact request_answers hpass rfl (takeClaim_taken (s := s.endFrame m) hwaits hoverlaps hfree hlowest)

theorem expectedOf_some_iff {d : Word16} : expectedOf presence digest = some d ↔ presence = 1 ∧ digest = d := by
  unfold expectedOf
  split
  case isTrue h => simp [h]
  case isFalse h => exact iff_of_false nofun fun h' => h h'.1

end

/-- Settles O15: the entry is created PENDING at the tail, and the answer is read off the table after grant evaluation; with
no other claim waiting, that is one visit. -/
theorem claimTaken : Obligations.ClaimTaken := by
  intro m set lease wait presence digest p s hpass hwaits hoverlaps hfree hlowest n pending held t answers
  have hpending : pending = newClaim m set lease wait presence digest s := rfl
  have hentry : ((s.endFrame m).setClaims (s.claims.create p (newClaim m set lease wait presence digest s))).entry p =
      some pending := (State.setEntry_entry s p p (some pending)).trans (if_pos rfl)
  have hanswers {results : List Byte} (h : claimResults p n t = results) : answers results :=
    exec_claim_taken hpass hwaits hoverlaps hfree hlowest (t := t) rfl h
  have htaken {u : State} {results : List Byte}
      (hu : ((s.endFrame m).setClaims (s.claims.create p pending)).grantEvaluation = u)
      (hresults : claimResults p n u = results) :
      exec (.claim m set lease wait presence digest) s = .next (u.respond m 0x10 (.ok results)) :=
    exec_claim_taken hpass hwaits hoverlaps hfree hlowest hu hresults
  refine ⟨?outcomes, fun h => hanswers (claimResults_held h rfl), fun h => hanswers (claimResults_pending h rfl),
    fun h => hanswers (claimResults_refused h), fun horder hnone => ⟨fun hall hagrees => ?granted,
      fun hall hagrees => ?refused, fun hheld => ?waits⟩⟩
  case outcomes =>
    rcases State.grantEvaluation_entry hentry with h | h | h
    · exact .inr (.inl h)
    · exact .inl h
    · exact .inr (.inr h)
  case granted =>
    have hdigest : ∀ d, expectedOf presence digest = some d → d = s.combinedDigest (channelSetOf set) := fun d hd => by
      obtain ⟨hpresence, rfl⟩ := expectedOf_some_iff.mp hd
      exact hagrees hpresence
    refine htaken (State.grantEvaluation_create_granted (s := s.endFrame m) hfree horder (e := pending) rfl hall hdigest) ?_
    exact claimResults_held (e := held) ((State.setEntry_entry s p p (some held)).trans (if_pos rfl)) rfl
  case refused =>
    have hdigest : ∃ d, expectedOf presence digest = some d ∧ d ≠ s.combinedDigest (channelSetOf set) := by
      obtain ⟨hpresence, hne⟩ := Classical.not_imp.mp hagrees
      exact ⟨digest, expectedOf_some_iff.mpr ⟨hpresence, rfl⟩, hne⟩
    exact htaken (State.grantEvaluation_create_refused (s := s.endFrame m) hfree horder (e := pending) rfl hall hdigest)
      (claimResults_refused hfree)
  case waits =>
    refine htaken (State.grantEvaluation_create_waits (s := s.endFrame m) hfree horder (e := pending) rfl hheld) ?_
    have hplace := claimResults_pending (number := n)
      (s := (s.endFrame m).setClaims { s.claims.setEntry p (some pending) with order := [p], nextNumber := numberAfter n })
      (e := pending) ((State.setEntry_entry s p p (some pending)).trans (if_pos rfl)) rfl
    have hfirst : ([p] : List Pos).idxOf p = 0 := List.idxOf_cons_self
    exact hplace.trans (congrArg (fun k => [n, 0x01, BitVec.ofNat 8 (k + 1)]) hfirst)

end Sys2Proof.Machine
end

section
/-!
The requests that read, acknowledge and mask (R27, R40, R65, R69, R98, R112, R161 to R168, R173, R177, R178, R183): none of them is
refused past its parameters.
-/

namespace Sys2Proof.Machine

/-- An exempt request that is well formed passes the head, whoever sends it. -/
theorem passesHead_exempt {i : Instr} {m : Master} {s : State} (hf : s.frameEnd m = some i) (hok : i.parametersOk = true)
    (he : i.barrable = false) : PassesHead i m s := ⟨hf, hok, fun h => absurd (he.symm.trans h) Bool.false_ne_true⟩

/-! ## Notices (R161 to R168) -/

/-- Only the notices named keep their place: REVOKED's complement. -/
theorem not_revoked_bit : ~~~Notice.revoked.bit = 0x1FB#9 := by decide

theorem NoticeState.clearRevoked_eq (n : NoticeState) :
    n.clearRevoked =
      { n with
        pending := n.pending &&& 0x1FB#9, line := decide (n.pending &&& 0x1FB#9 &&& (~~~n.mask ||| 0x004#9) ≠ 0) } := by
  rw [NoticeState.clearRevoked, not_revoked_bit]
  rfl

/-- A change of the notices reads them once. -/
theorem State.onNotices_eq (s : State) (m : Master) (f : NoticeState → NoticeState) :
    s.onNotices m f = s.onNotices m (fun _ => f (s.notice m)) := rfl

theorem NoticeState.acknowledge_eq (n : NoticeState) (named : NoticeSet) :
    n.acknowledge named =
      { n with
        pending := n.pending &&& (~~~named ||| 0x004#9)
        line := decide (n.pending &&& (~~~named ||| 0x004#9) &&& (~~~n.mask ||| 0x004#9) ≠ 0) } := rfl

theorem NoticeState.setMask_eq (n : NoticeState) (mask : NoticeSet) :
    n.setMask mask =
      { n with
        mask := mask &&& 0x1FB#9, line := decide (n.pending &&& (~~~(mask &&& 0x1FB#9) ||| 0x004#9) ≠ 0) } := by
  rw [NoticeState.setMask, not_revoked_bit]
  rfl

theorem revokeState_code (s : State) (m : Master) : (s.claims.revoke.get m).code = if s.barred m then 0x01 else 0x00 := by
  unfold State.barred
  cases s.claims.revoke.get m <;> rfl

theorem isNoticeSet_of_lt {set : Word16} (h : set.toNat < 512) : isNoticeSet set = true := by
  rw [isNoticeSet, decide_eq_true_iff]
  exact h

section
variable (m : Master) (s : State)

theorem takeAckRevoke_eq :
    takeAckRevoke m s =
      ((s.setRevoke m .active).onNotices m (fun _ =>
          { s.notice m with
            pending := (s.notice m).pending &&& 0x1FB#9
            line := decide ((s.notice m).pending &&& 0x1FB#9 &&& (~~~(s.notice m).mask ||| 0x004#9) ≠ 0) }),
        .ok [if s.barred m then 0x01 else 0x00]) := by
  have hnotice : (s.setRevoke m .active).notice m = s.notice m := rfl
  rw [takeAckRevoke, revokeState_code, State.onNotices_eq, hnotice, NoticeState.clearRevoked_eq]

theorem takeAckNotices_eq (named : NoticeSet) :
    takeAckNotices m named s =
      (s.onNotices m (fun _ =>
          { s.notice m with
            pending := (s.notice m).pending &&& (~~~named ||| 0x004#9)
            line := decide
              ((s.notice m).pending &&& (~~~named ||| 0x004#9) &&& (~~~(s.notice m).mask ||| 0x004#9) ≠ 0) }),
        .ok (noticeBytes ((s.notice m).pending &&& (~~~named ||| 0x004#9)))) := by
  rw [takeAckNotices, State.onNotices_eq, NoticeState.acknowledge_eq]

theorem takeSetNoticeMask_eq (mask : NoticeSet) :
    takeSetNoticeMask m mask s =
      (s.onNotices m (fun _ =>
          { s.notice m with
            mask := mask &&& 0x1FB#9
            line := decide ((s.notice m).pending &&& (~~~(mask &&& 0x1FB#9) ||| 0x004#9) ≠ 0) }),
        .ok (noticeBytes (mask &&& 0x1FB#9) ++ noticeBytes (s.notice m).pending)) := by
  rw [takeSetNoticeMask, State.onNotices_eq, NoticeState.setMask_eq]

end

/-- Settles O21: each of these rules is one function of the master's notices, or of its port. -/
theorem acknowledgingRequests : Obligations.AcknowledgingRequests := by
  refine ⟨fun n k => ?raise, fun n reason => rfl, fun m s => ⟨fun k => rfl, fun f => ⟨rfl, s.notice_onNotices_same m f,
    fun other h => s.notice_onNotices_other f h⟩⟩, fun m s => ⟨fun hf => ?ackRevoke, fun set hf hset => ?ackNotices,
    fun set hf hset => ?setMask, fun hf => ?clear⟩⟩
  case raise => cases k <;> rfl
  case ackRevoke => exact request_answers (passesHead_exempt hf rfl rfl) rfl (takeAckRevoke_eq m (s.endFrame m))
  case ackNotices =>
    exact request_answers (passesHead_exempt hf (isNoticeSet_of_lt hset) rfl) rfl
      (takeAckNotices_eq m (s.endFrame m) (set.setWidth 9))
  case setMask =>
    exact request_answers (passesHead_exempt hf (isNoticeSet_of_lt hset) rfl) rfl
      (takeSetNoticeMask_eq m (s.endFrame m) (set.setWidth 9))
  case clear =>
    refine request_answers (passesHead_exempt hf rfl rfl) rfl (Prod.ext ?_ ?_)
    · show ((s.endFrame m).setPort m { (s.endFrame m).port m with capture := none }) = _
      rw [State.endFrame, State.setPort_setPort, State.port_setPort_same]
      rfl
    · show Answer.ok (captureBytes ((s.endFrame m).port m).capture) = _
      rw [State.endFrame, State.port_setPort_same]
      show Answer.ok (captureBytes (s.port m).capture) = _
      cases (s.port m).capture <;> rfl

/-! ## Readouts (R27, R98, R192, R193) -/

section
variable {s : State} {p : Pos} {e : ClaimEntry} {selector value : Byte}

theorem ClaimTable.select_some {t : ClaimTable} (h : (selector = 0 ∧ t.find value = some (p, e)) ∨
    (selector = 1 ∧ p.val = value.toNat ∧ t.entries[p] = some e)) : t.select selector value = some (p, e) := by
  rcases h with ⟨rfl, h⟩ | ⟨rfl, hp, h⟩
  · exact h
  · obtain rfl : posOf value = p := posOf_eq hp
    rw [ClaimTable.select, if_neg (by decide), h]
    rfl

theorem ClaimTable.select_none {t : ClaimTable} {m : Master}
    (hok : (Instr.readClaim m selector value).parametersOk = true)
    (h : (selector = 0 ∧ t.find value = none) ∨ (selector = 1 ∧ ∀ p : Pos, p.val = value.toNat → t.entries[p] = none)) :
    t.select selector value = none := by
  rcases h with ⟨rfl, h⟩ | ⟨rfl, h⟩
  · exact h
  · have hvalue : value.toNat < 8 := by
      simp only [Instr.parametersOk, atMost, Bool.or_eq_true, Bool.and_eq_true, decide_eq_true_iff] at hok
      rcases hok with ⟨hzero, -⟩ | ⟨-, hmost⟩
      · exact absurd hzero (by decide)
      · omega
    have hpos : (posOf value).val = value.toNat :=
      congrArg Fin.val (posOf_eq (value := value) (p := ⟨value.toNat, hvalue⟩) rfl)
    rw [ClaimTable.select, if_neg (by decide), h _ hpos]
    rfl

theorem takeReadClaim_some {number : Byte} (h : s.claims.select selector number = some (p, e)) :
    takeReadClaim selector number s = (s, .ok (e.readout p (s.claims.place p))) := by
  rw [takeReadClaim, h]

theorem takeReadClaim_none {number : Byte} (h : s.claims.select selector number = none) :
    takeReadClaim selector number s = (s, .ok [0x00]) := by
  rw [takeReadClaim, h]

end

theorem slotBytes_eq (st : Option StepRecord) :
    slotBytes st =
      match st with
      | none => [0x00, 0x00, 0x00, 0x00, 0x00, 0x00, 0x00, 0x00]
      | some st => [0x01] ++ st.bytes := by
  cases st <;> rfl

/-- The request READ_CLAIM on the entry that it selects. -/
theorem exec_readClaim {m : Master} {selector value : Byte} {s : State} {p : Pos} {e : ClaimEntry}
    (hpass : PassesHead (.readClaim m selector value) m s) (h : s.claims.select selector value = some (p, e))
    {results : List Byte} (hresults : e.readout p (s.claims.place p) = results) :
    exec (.readClaim m selector value) s = .next ((s.endFrame m).respond m 0x17 (.ok results)) := by
  subst hresults
  exact request_answers hpass rfl (takeReadClaim_some (s := s.endFrame m) h)

theorem ClaimEntry.readout_held {e : ClaimEntry} {lease : Word16} {tag : Word32} (h : e.state = .held lease tag) (p : Pos)
    (place : Nat) :
    e.readout p place =
      [0x02, e.number, BitVec.ofNat 8 p.val, e.master.code] ++ setBytes e.set ++ bytes16 e.leasePeriod ++
        (bytes16 lease ++ bytes32 tag ++ [0xFF, 0x00, 0x00]) := by
  rw [ClaimEntry.readout, h]
  rfl

theorem ClaimEntry.readout_offered {e : ClaimEntry} {lease : Word16} {tag : Word32} {target : Master} {remaining : Word16}
    (h : e.state = .offered lease tag target remaining) (p : Pos) (place : Nat) :
    e.readout p place =
      [0x03, e.number, BitVec.ofNat 8 p.val, e.master.code] ++ setBytes e.set ++ bytes16 e.leasePeriod ++
        (bytes16 lease ++ bytes32 tag ++ [target.code] ++ bytes16 remaining) := by
  rw [ClaimEntry.readout, h]
  rfl

theorem isChannel_of_eq {channel : Byte} {c : Ch} (h : channel.toNat = c.val) : isChannel channel = true := by
  rw [isChannel, decide_eq_true_iff, h]
  exact c.isLt

/-- Settles O13: a reading request takes nothing, and answers its block's fields as they stand. -/
theorem readingRequests : Obligations.ReadingRequests := by
  refine fun m s => ⟨fun hf => ?nop, fun selector value hf hok => ⟨fun p e hselect => ?found, fun hselect => ?absent⟩,
    fun channel c hf hc => ?channel, fun channel c hf hc => ?config, fun set hf hne hset => ?digest,
    fun channel slot c n hf hc hn => ?step, fun hf => ?notices, fun hf => ?portError, fun hf => ?time⟩
  case nop => exact request_answers (passesHead_exempt hf rfl rfl) rfl rfl
  case found =>
    have hpass := passesHead_exempt hf hok rfl
    have hclaim : s.claims.select selector value = some (p, e) := ClaimTable.select_some hselect
    refine ⟨fun wait expected hstate => exec_readClaim hpass hclaim ?pending,
      fun lease tag hstate => exec_readClaim hpass hclaim (ClaimEntry.readout_held hstate p _),
      fun lease tag target remaining hstate => exec_readClaim hpass hclaim (ClaimEntry.readout_offered hstate p _)⟩
    case pending =>
      rw [ClaimEntry.readout, hstate]
      cases wait <;> cases expected <;> rfl
  case absent =>
    have hclaim : (s.endFrame m).claims.select selector value = none := ClaimTable.select_none hok hselect
    exact request_answers (passesHead_exempt hf hok rfl) rfl (takeReadClaim_none hclaim)
  case channel =>
    obtain rfl : chOf channel = c := chOf_eq hc
    intro u
    refine request_answers (passesHead_exempt hf (isChannel_of_eq hc) rfl) rfl (congrArg (fun r => (s.endFrame m, Answer.ok r)) ?_)
    show u.readout ((s.claims.holding (chOf channel)).map fun e => (e.master, e.number)) = _
    unfold ChannelUnit.readout
    refine congrArg₂ HAppend.hAppend (congrArg₂ HAppend.hAppend (congrArg (HAppend.hAppend · [u.list.code])
      ((List.append_assoc ..).trans (congrArg₂ HAppend.hAppend (congrArg (HAppend.hAppend _) ?held) ?drive))) ?list) ?last
    case held => cases s.claims.holding (chOf channel) <;> rfl
    case drive => cases u.drive <;> rfl
    case last =>
      cases u.lastCheck with
      | none => rfl
      | some k => cases k.outcome <;> rfl
    case list =>
      cases u.list with
      | armed l => cases l <;> rfl
      | empty | loaded | running r | paused r => rfl
  case config =>
    obtain rfl : chOf channel = c := chOf_eq hc
    exact request_answers (passesHead_exempt hf (isChannel_of_eq hc) rfl) rfl rfl
  case digest =>
    have hok : (Instr.readDigest m set).parametersOk = true := by
      simp only [Instr.parametersOk, isChannelSet, Bool.and_eq_true, decide_eq_true_iff]
      exact ⟨hne, hset⟩
    refine request_answers (passesHead_exempt hf hok rfl) rfl ?_
    rw [takeReadDigest, setBytes_channelSetOf hset]
    rfl
  case step =>
    obtain rfl : chOf channel = c := chOf_eq hc
    obtain rfl : slotOf slot = n := slotOf_eq hn
    have hslot : natByte (slotOf slot).val = slot := natByte_eq hn
    have hok : (Instr.readStep m channel slot).parametersOk = true := by
      simp only [Instr.parametersOk, Bool.and_eq_true, atMost, decide_eq_true_iff]
      exact ⟨isChannel_of_eq hc, by omega⟩
    refine request_answers (passesHead_exempt hf hok rfl) rfl ?_
    rw [takeReadStep, hslot]
    show (s.endFrame m, Answer.ok ([slot] ++ slotBytes (s.channel (chOf channel)).slots[slotOf slot] ++ _ ++ _)) = _
    cases (s.channel (chOf channel)).slots[slotOf slot] <;> rfl
  case notices =>
    refine request_answers (passesHead_exempt hf rfl rfl) rfl ?_
    have hnotice : (s.endFrame m).notice m = s.notice m := rfl
    rw [takeReadNotices, hnotice]
    cases (s.notice m).handoff <;> rfl
  case portError =>
    refine request_answers (passesHead_exempt hf rfl rfl) rfl ?_
    have hport : ((s.endFrame m).port m).capture = (s.port m).capture := by
      rw [State.endFrame, State.port_setPort_same]
      rfl
    rw [takeReadPortError, hport]
    cases (s.port m).capture <;> rfl
  case time =>
    refine request_answers (passesHead_exempt hf rfl rfl) rfl ?_
    show (s.endFrame m, Answer.ok (bytes32 s.timeTag ++ [_, _, levelsByte s.trg0.level s.trg1.level])) = _
    cases s.trg0.level <;> cases s.trg1.level <;> rfl

end Sys2Proof.Machine
end

section
/-!
SET_RANGE and SET_POLICY from the channel's holder (R58 to R63), and the events at a held channel (R149, R161).
-/

namespace Sys2Proof.Machine

section
variable {m : Master} {c : Ch} {s : State}

/-! ## Events at a held channel -/

theorem State.channelEvent_eq {f : ChannelUnit → Progress} {u : ChannelUnit} {es : List ChannelEffect}
    (h : f (s.channel c) = (u, es)) : s.channelEvent c f = es.foldl (State.emit c) (s.setChannel c u) := by
  rw [State.channelEvent, h]

/-- Only what the event makes of the channel unit as it stands counts. -/
theorem State.channelEvent_congr {f g : ChannelUnit → Progress} (h : f (s.channel c) = g (s.channel c)) :
    s.channelEvent c f = s.channelEvent c g := (State.channelEvent_eq h).trans (State.channelEvent_eq rfl).symm

/-- An event that asks for nothing changes its channel unit only. -/
theorem State.channelEvent_silent {f : ChannelUnit → Progress} {u : ChannelUnit} (h : f (s.channel c) = (u, [])) :
    s.channelEvent c f = s.setChannel c u := State.channelEvent_eq h

/-- An effect of a channel that the master holds: its record, or its notice (R149, R161). -/
def State.told (m : Master) (c : Ch) (s : State) : ChannelEffect → State
  | .record r => s.append (.channel m c r)
  | .notice k => s.raise m k

theorem State.emit_held (h : s.holder c = some m) (e : ChannelEffect) : State.emit c s e = s.told m c e := by
  rw [State.emit, h]
  rfl

theorem State.told_holder (s : State) (e : ChannelEffect) (d : Ch) : (s.told m c e).holder d = s.holder d := by
  cases e <;> rfl

theorem State.foldl_emit_held (es : List ChannelEffect) (h : s.holder c = some m) :
    es.foldl (State.emit c) s = es.foldl (State.told m c) s := by
  induction es generalizing s with
  | nil => rfl
  | cons e es ih => rw [List.foldl_cons, List.foldl_cons, State.emit_held h, ih ((s.told_holder e c).trans h)]

theorem State.channelEvent_held (h : s.holder c = some m) {f : ChannelUnit → Progress} {u : ChannelUnit}
    {es : List ChannelEffect} (hf : f (s.channel c) = (u, es)) :
    s.channelEvent c f = es.foldl (State.told m c) (s.setChannel c u) :=
  (State.channelEvent_eq hf).trans (State.foldl_emit_held es (s := s.setChannel c u) h)

theorem ownChannel_holder (h : s.holder c = some m) (take : State × Answer) : ownChannel m c s take = take := if_pos h

/-! ## The configuration (R58 to R63) -/

theorem ChannelUnit.configurable_eq_false {u : ChannelUnit} (h : u.drive ≠ .steady ∨ u.list.active = true) :
    u.configurable = false := by
  rw [← Bool.not_eq_true, ChannelUnit.configurable_iff]
  rintro ⟨hdrive, hlist⟩
  rcases h with h | h
  · exact h hdrive
  · exact Bool.false_ne_true (hlist.symm.trans h)

theorem RangePart.holds_eq_false {r : RangePart} {code : Word16} (h : ¬ (r.low ≤ code ∧ code ≤ r.high)) :
    r.holds code = false := by
  rw [← Bool.not_eq_true, RangePart.holds_iff]
  exact h

theorem takeSetRange_state (hheld : s.holder c = some m) (r : RangePart)
    (h : (s.channel c).drive ≠ .steady ∨ (s.channel c).list.active = true) :
    takeSetRange m c r s = (s, .refuse .wrongState) := by
  rw [takeSetRange, ownChannel_holder hheld, if_pos (ChannelUnit.configurable_eq_false h)]

theorem takeSetRange_limit (hheld : s.holder c = some m) {r : RangePart} (hdrive : (s.channel c).drive = .steady)
    (hlist : (s.channel c).list.active = false) (hcode : ¬ (r.low ≤ (s.channel c).code ∧ (s.channel c).code ≤ r.high)) :
    takeSetRange m c r s = (s, .refuse .limit) := by
  rw [takeSetRange, ownChannel_holder hheld,
    if_neg (ne_false_of_eq_true (ChannelUnit.configurable_iff.mpr ⟨hdrive, hlist⟩)),
    if_pos (RangePart.holds_eq_false hcode)]

theorem takeConfigChange_eq (hheld : s.holder c = some m) {f : ChannelUnit → ChannelUnit} {u : ChannelUnit}
    (h : f (s.channel c) = u) :
    takeConfigChange m c f s =
      (((s.setChannel c u).append (.channel m c (.configChanged u.digest))).renewLeases m (onlyChannel c),
        .ok (bytes16 u.digest)) := by
  subst h
  rw [takeConfigChange, State.channelEvent_held (es := [.record _]) hheld rfl]
  rfl

theorem takeSetRange_taken (hheld : s.holder c = some m) {r : RangePart} (hdrive : (s.channel c).drive = .steady)
    (hlist : (s.channel c).list.active = false) (hcode : r.low ≤ (s.channel c).code ∧ (s.channel c).code ≤ r.high) :
    takeSetRange m c r s = takeConfigChange m c (ChannelUnit.setRange r) s := by
  rw [takeSetRange, ownChannel_holder hheld,
    if_neg (ne_false_of_eq_true (ChannelUnit.configurable_iff.mpr ⟨hdrive, hlist⟩)),
    if_neg (ne_false_of_eq_true (RangePart.holds_iff.mpr hcode))]

theorem takeSetPolicy_state (hheld : s.holder c = some m) (p : PolicyPart)
    (h : (s.channel c).drive ≠ .steady ∨ (s.channel c).list.active = true) :
    takeSetPolicy m c p s = (s, .refuse .wrongState) := by
  rw [takeSetPolicy, ownChannel_holder hheld, if_pos (ChannelUnit.configurable_eq_false h)]

theorem takeSetPolicy_taken (hheld : s.holder c = some m) (p : PolicyPart) (hdrive : (s.channel c).drive = .steady)
    (hlist : (s.channel c).list.active = false) :
    takeSetPolicy m c p s = takeConfigChange m c (ChannelUnit.setPolicy p) s := by
  rw [takeSetPolicy, ownChannel_holder hheld,
    if_neg (ne_false_of_eq_true (ChannelUnit.configurable_iff.mpr ⟨hdrive, hlist⟩))]

end

/-- Settles O27: the channel unit decides over the range it is to have, and a change that is taken writes one record. -/
theorem configurationRequests : Obligations.ConfigurationRequests := by
  intro m c channel s hchannel hheld u
  obtain rfl : chOf channel = c := chOf_eq hchannel
  have hend : (s.endFrame m).holder (chOf channel) = some m := hheld
  constructor
  · intro low high fallback maxRate hpass config
    exact ⟨fun h => request_answers hpass rfl (takeSetRange_state hend _ h),
      fun hdrive hlist hcode => request_answers hpass rfl (takeSetRange_limit hend hdrive hlist hcode),
      fun hdrive hlist hlow hhigh => request_answers hpass rfl
        ((takeSetRange_taken (r := rangeOf low high fallback maxRate) hend hdrive hlist ⟨hlow, hhigh⟩).trans
          (takeConfigChange_eq hend rfl))⟩
  · intro settle retry packed counted fault revoke hpass config
    exact ⟨fun h => request_answers hpass rfl (takeSetPolicy_state hend _ h),
      fun hdrive hlist => request_answers hpass rfl
        ((takeSetPolicy_taken hend _ hdrive hlist).trans (takeConfigChange_eq hend rfl))⟩

end Sys2Proof.Machine
end

section
/-!
The bytes of a configuration, of a step and of a list as they are sent (R191), and the encodings of answer fields (R189).
-/

namespace Sys2Proof.Machine

/-! ## Fields of a few values in one byte -/

/-- What the first byte values satisfy, a byte bounded by the last of them satisfies. -/
theorem byte_of_atMost {P : Byte → Prop} {n : Nat} (h : ∀ k : Fin (n + 1), P (BitVec.ofNat 8 k.val)) {b : Byte}
    (hb : atMost b n = true) : P b := by
  rw [atMost, decide_eq_true_iff] at hb
  have hself : BitVec.ofNat 8 b.toNat = b :=
    BitVec.eq_of_toNat_eq (by rw [BitVec.toNat_ofNat]; exact Nat.mod_eq_of_lt b.isLt)
  exact hself ▸ h ⟨b.toNat, Nat.lt_succ_of_le hb⟩

/-- Byte 10 of a configuration record: its retry stages, its preferred stage and its check-writes flag (R191). -/
def PolicyPart.packed (p : PolicyPart) : Byte :=
  packedBit (p.retry1 = .alternate) 0 ||| packedBit (p.retry2 = .alternate) 1 ||| packedBit (p.preferred = .b) 2 |||
    packedBit p.checkWrites 3

theorem ConfigRecord.bytes_drop_eight (r : ConfigRecord) :
    r.bytes.drop 8 =
      [r.policy.settleTime, r.policy.retryLimit, r.policy.packed, r.policy.counted.setWidth 8, r.policy.faultAction.code,
        r.policy.revokeAction.code] := rfl

theorem policyOf_packed (settle retry : Byte) {packed : Byte} (counted fault revoke : Byte) (h : atMost packed 15 = true) :
    (policyOf settle retry packed counted fault revoke).packed = packed := by
  show (policyOf 0 0 packed 0 0 0).packed = packed
  refine byte_of_atMost (P := fun b => (policyOf 0 0 b 0 0 0).packed = b) ?_ h
  decide

theorem setWidth_of_atMost {counted : Byte} (h : atMost counted 7 = true) :
    (counted.setWidth 3 : FaultSet).setWidth 8 = counted := by
  refine byte_of_atMost (P := fun b => (b.setWidth 3 : FaultSet).setWidth 8 = b) ?_ h
  decide

theorem actionOf_code {b : Byte} (h : atMost b 2 = true) : (actionOf b).code = b := by
  refine byte_of_atMost (P := fun b => (actionOf b).code = b) ?_ h
  decide

/-- Byte 6 of a step record: its hold field, its check flag and its record flag (R191). -/
def StepRecord.flags (st : StepRecord) : Byte := st.hold.code ||| packedBit st.check 2 ||| packedBit st.record 3

theorem StepRecord.bytes_eq (st : StepRecord) :
    st.bytes = bytes16 st.target ++ bytes16 st.rate ++ bytes16 st.dwell ++ [st.flags] := rfl

theorem stepOf_flags (target rate dwell : Word16) {flags : Byte} (h : atMost flags 15 = true) :
    (stepOf target rate dwell flags).flags = flags := by
  show (stepOf 0 0 0 flags).flags = flags
  refine byte_of_atMost (P := fun b => (stepOf 0 0 0 b).flags = b) ?_ h
  decide

theorem modeCode_of_atMost {mode : Byte} (h : atMost mode 1 = true) :
    (if mode = 0 then ListMode.single else .cyclic).code = mode := by
  refine byte_of_atMost (P := fun mode => (if mode = 0 then ListMode.single else .cyclic).code = mode) ?_ h
  decide

theorem onFaultCode_of_atMost {b : Byte} (h : atMost b 2 = true) :
    (if b = 0 then OnFault.stop else if b = 1 then .finishPass else .continue).code = b := by
  refine byte_of_atMost (P := fun b => (if b = 0 then OnFault.stop else if b = 1 then .finishPass else .continue).code = b) ?_ h
  decide

theorem flagByte_of_atMost {b : Byte} (h : atMost b 1 = true) : flagByte (decide (b = 1)) = b := by
  refine byte_of_atMost (P := fun b => flagByte (decide (b = 1)) = b) ?_ h
  decide

/-- Settles O28: within the bounds of its parameters, every field's code is the byte it was read from. -/
theorem recordBytesAsSent : Obligations.RecordBytesAsSent := by
  refine ⟨fun m channel low high fallback maxRate policy hok => rfl, ?policy, ?step, ?list,
    fun w v set notices => ⟨rfl, rfl, rfl, rfl⟩, fun mv ck l r gap => ⟨rfl, rfl, rfl⟩,
    rfl, rfl, rfl, rfl, rfl, rfl, rfl⟩
  case policy =>
    intro m channel settle retry packed counted fault revoke range hok
    simp only [Instr.parametersOk, Bool.and_eq_true] at hok
    obtain ⟨⟨⟨⟨⟨⟨-, -⟩, -⟩, hpacked⟩, hcounted⟩, hfault⟩, hrevoke⟩ := hok
    rw [ConfigRecord.bytes_drop_eight, policyOf_packed settle retry counted fault revoke hpacked]
    show [settle, retry, packed, (counted.setWidth 3 : FaultSet).setWidth 8, (actionOf fault).code, (actionOf revoke).code] = _
    rw [setWidth_of_atMost hcounted, actionOf_code hfault, actionOf_code hrevoke]
  case step =>
    intro m channel slot target rate dwell flags hok
    simp only [Instr.parametersOk, Bool.and_eq_true] at hok
    obtain ⟨-, hflags⟩ := hok
    rw [StepRecord.bytes_eq, stepOf_flags target rate dwell hflags]
    rfl
  case list =>
    intro m channel count mode period onFault recordPasses hok
    simp only [Instr.parametersOk, Bool.and_eq_true] at hok
    obtain ⟨⟨⟨-, hmode⟩, honFault⟩, hpasses⟩ := hok
    simp only [Descriptor.bytes, descriptorOf, modeCode_of_atMost hmode, onFaultCode_of_atMost honFault,
      flagByte_of_atMost hpasses]

end Sys2Proof.Machine
end

section
/-!
WRITE, CLEAR_FAULT, LOAD_STEP and SET_LIST on a channel that the requester holds (R76, R79, R80, R91, R107 to R110).
-/

namespace Sys2Proof.Machine

section
variable {m : Master} {c : Ch} {s : State} {u : ChannelUnit}

/-! ## The start of a move (R76) -/

theorem ChannelUnit.startMove_ends {target rate : Word16} (o : MoveOrigin) (required : Bool)
    (h : effectiveRate rate u.config.range.maxRate = 0 ∨ target = u.code) :
    u.startMove target o rate required = { u with code := target }.endMove o required := if_pos h

theorem ChannelUnit.startMove_runs {target rate : Word16} (o : MoveOrigin) (required : Bool)
    (hrate : effectiveRate rate u.config.range.maxRate ≠ 0) (hway : target ≠ u.code) :
    u.startMove target o rate required =
      { u with
        drive := .moving
          { target := target, rate := effectiveRate rate u.config.range.maxRate, origin := o, checkRequired := required
            advanceDue := false } } := if_neg (not_or.mpr ⟨hrate, hway⟩)

/-- A WRITE's move starts from a steady drive: what was in progress is stopped or cancelled (R76, R88). -/
theorem ChannelUnit.write_eq (code rate : Word16) (u : ChannelUnit) :
    u.write code rate = { u with drive := .steady }.startMove code .write rate u.config.policy.checkWrites := by
  obtain ⟨_, _, _, drive⟩ := u
  cases drive <;> rfl

theorem ChannelUnit.write_runs {code rate : Word16} (hrate : effectiveRate rate u.config.range.maxRate ≠ 0)
    (hway : code ≠ u.code) :
    u.write code rate =
      { u with
        drive := .moving
          { target := code, rate := effectiveRate rate u.config.range.maxRate, origin := .write
            checkRequired := u.config.policy.checkWrites, advanceDue := false } } :=
  (u.write_eq code rate).trans (ChannelUnit.startMove_runs (u := { u with drive := .steady }) _ _ hrate hway)

theorem ChannelUnit.write_ends {code rate : Word16}
    (h : effectiveRate rate u.config.range.maxRate = 0 ∨ code = u.code) :
    u.write code rate = { u with code := code, drive := .steady }.endMove .write u.config.policy.checkWrites :=
  (u.write_eq code rate).trans (ChannelUnit.startMove_ends (u := { u with drive := .steady }) _ _ h)

/-! ## WRITE (R79, R80) -/

theorem takeWrite_active (hheld : s.holder c = some m) (code rate : Word16) (h : (s.channel c).list.active = true) :
    takeWrite m c code rate s = (s, .refuse .wrongState) := by
  rw [takeWrite, ownChannel_holder hheld, if_pos h]

theorem takeWrite_latched (hheld : s.holder c = some m) (code rate : Word16) (hlist : (s.channel c).list.active = false)
    (h : (s.channel c).faultLatch = true) : takeWrite m c code rate s = (s, .refuse .faulted) := by
  rw [takeWrite, ownChannel_holder hheld, if_neg (ne_true_of_eq_false hlist), if_pos h]

theorem takeWrite_limit (hheld : s.holder c = some m) {code : Word16} (rate : Word16)
    (hlist : (s.channel c).list.active = false) (hlatch : (s.channel c).faultLatch = false)
    (h : ¬ ((s.channel c).config.range.low ≤ code ∧ code ≤ (s.channel c).config.range.high)) :
    takeWrite m c code rate s = (s, .refuse .limit) := by
  rw [takeWrite, ownChannel_holder hheld, if_neg (ne_true_of_eq_false hlist),
    if_neg (ne_true_of_eq_false hlatch), if_pos (RangePart.holds_eq_false h)]

theorem takeWrite_taken (hheld : s.holder c = some m) {code rate : Word16}
    (hlist : (s.channel c).list.active = false) (hlatch : (s.channel c).faultLatch = false)
    (h : (s.channel c).config.range.low ≤ code ∧ code ≤ (s.channel c).config.range.high)
    (hwrite : (s.channel c).write code rate = u) :
    takeWrite m c code rate s =
      ((s.setChannel c u).renewLeases m (onlyChannel c),
        .ok (bytes16 (effectiveRate rate (s.channel c).config.range.maxRate) ++ [u.drive.code])) := by
  subst hwrite
  rw [takeWrite, ownChannel_holder hheld, if_neg (ne_true_of_eq_false hlist),
    if_neg (ne_true_of_eq_false hlatch), if_neg (ne_false_of_eq_true (RangePart.holds_iff.mpr h))]
  rfl

end

/-- Settles O30: a WRITE that is taken is the start of a move from a steady drive, which runs or ends at once. -/
theorem writeOutcomes : Obligations.WriteOutcomes := by
  intro m c channel code rate s hchannel hheld hpass u range effective answers leaves
  obtain rfl : chOf channel = c := chOf_eq hchannel
  have hend : (s.endFrame m).holder (chOf channel) = some m := hheld
  refine ⟨fun hlist => request_answers hpass rfl (takeWrite_active hend code rate hlist),
    fun hlist hlatch => request_answers hpass rfl (takeWrite_latched hend code rate hlist hlatch),
    fun hlist hlatch hcode => request_answers hpass rfl (takeWrite_limit hend rate hlist hlatch hcode),
    fun hlist hlatch hlow hhigh => ?taken⟩
  have taken {now : Word16} {drive : Drive} (h : u.write code rate = { u with code := now, drive := drive }) :
      leaves drive now :=
    request_answers hpass rfl (takeWrite_taken (s := s.endFrame m) hend hlist hlatch ⟨hlow, hhigh⟩ h)
  exact ⟨fun hrate hway => taken (ChannelUnit.write_runs hrate hway),
    fun hends hcheck => taken (by rw [ChannelUnit.write_ends hends, hcheck]; rfl),
    fun hends hcheck => taken (by rw [ChannelUnit.write_ends hends, hcheck]; rfl)⟩

section
variable {m : Master} {c : Ch} {s : State}

/-! ## LOAD_STEP and SET_LIST (R107 to R110) -/

theorem takeLoadStep_active (hheld : s.holder c = some m) (slot : Fin 16) (st : StepRecord)
    (h : (s.channel c).list.active = true) : takeLoadStep m c slot st s = (s, .refuse .wrongState) := by
  rw [takeLoadStep, ownChannel_holder hheld, if_pos h]

theorem takeLoadStep_limit (hheld : s.holder c = some m) (slot : Fin 16) {st : StepRecord}
    (hlist : (s.channel c).list.active = false)
    (h : ¬ ((s.channel c).config.range.low ≤ st.target ∧ st.target ≤ (s.channel c).config.range.high)) :
    takeLoadStep m c slot st s = (s, .refuse .limit) := by
  rw [takeLoadStep, ownChannel_holder hheld, if_neg (ne_true_of_eq_false hlist), if_pos (RangePart.holds_eq_false h)]

theorem takeLoadStep_taken (hheld : s.holder c = some m) {slot : Byte} {n : Fin 16} (hslot : slot.toNat = n.val)
    {st : StepRecord} (hlist : (s.channel c).list.active = false)
    (h : (s.channel c).config.range.low ≤ st.target ∧ st.target ≤ (s.channel c).config.range.high) :
    takeLoadStep m c n st s =
      ((s.onChannel c (ChannelUnit.loadStep n st)).renewLeases m (onlyChannel c), .ok [slot, (s.channel c).list.code]) := by
  rw [takeLoadStep, ownChannel_holder hheld, if_neg (ne_true_of_eq_false hlist),
    if_neg (ne_false_of_eq_true (RangePart.holds_iff.mpr h)), natByte_eq hslot]

theorem takeSetList_refused (hheld : s.holder c = some m) {d : Descriptor}
    (h : (s.channel c).list.active = true ∨ ¬ ∀ n : Fin 16, n.val < d.count.toNat → (s.channel c).slots[n] ≠ none) :
    takeSetList m c d s = (s, .refuse .wrongState) := by
  rw [takeSetList, ownChannel_holder hheld]
  by_cases hlist : (s.channel c).list.active = true
  · rw [if_pos hlist]
  · have hblank := h.resolve_left hlist
    rw [← ChannelUnit.slotsLoaded_iff, Bool.not_eq_true] at hblank
    rw [if_neg hlist, if_pos hblank]

theorem takeSetList_taken (hheld : s.holder c = some m) {d : Descriptor} (hlist : (s.channel c).list.active = false)
    (h : ∀ n : Fin 16, n.val < d.count.toNat → (s.channel c).slots[n] ≠ none) :
    takeSetList m c d s =
      ((s.onChannel c (ChannelUnit.setList d)).renewLeases m (onlyChannel c), .ok [d.count]) := by
  rw [takeSetList, ownChannel_holder hheld, if_neg (ne_true_of_eq_false hlist),
    if_neg (ne_false_of_eq_true (ChannelUnit.slotsLoaded_iff.mpr h))]

end

/-- Settles O31: each request changes its own field, after the checks of its list state and of its limits. -/
theorem oneChannelRequests : Obligations.OneChannelRequests := by
  intro m c channel s hchannel hheld u
  obtain rfl : chOf channel = c := chOf_eq hchannel
  have hend : (s.endFrame m).holder (chOf channel) = some m := hheld
  refine ⟨fun hpass => request_answers hpass rfl (ownChannel_holder hend _), ?loadStep, ?setList⟩
  case loadStep =>
    intro slot n target rate dwell flags hslot hpass answers
    obtain rfl : slotOf slot = n := slotOf_eq hslot
    let st := stepOf target rate dwell flags
    exact ⟨fun hlist => request_answers hpass rfl (takeLoadStep_active hend _ _ hlist),
      fun hlist htarget => request_answers hpass rfl (takeLoadStep_limit (st := st) hend _ hlist htarget),
      fun hlist hlow hhigh => request_answers hpass rfl (takeLoadStep_taken (st := st) hend hslot hlist ⟨hlow, hhigh⟩)⟩
  case setList =>
    intro count mode period onFault recordPasses hpass loaded
    let d := descriptorOf count mode period onFault recordPasses
    exact ⟨fun h => request_answers hpass rfl (takeSetList_refused (d := d) hend h),
      fun hlist hloaded => request_answers hpass rfl (takeSetList_taken (d := d) hend hlist hloaded)⟩

end Sys2Proof.Machine
end

section
/-!
Moves (R77): how far a code is from its target, what an advance leaves of that, and the outcomes of MOVE_ADVANCE.
-/

namespace Sys2Proof.Machine

/-! ## The distance of a move -/

/-- How far a code is from a target. -/
def distance (code target : Word16) : Nat := if code ≤ target then (target - code).toNat else (code - target).toNat

theorem distance_eq (code target : Word16) :
    distance code target = (target.toNat - code.toNat) + (code.toNat - target.toNat) := by
  unfold distance
  split
  · next h =>
    have hle := BitVec.le_def.mp h
    rw [BitVec.toNat_sub_of_le h]
    omega
  · next h =>
    have hlt := BitVec.lt_def.mp (BitVec.not_le.mp h)
    rw [BitVec.toNat_sub_of_le (BitVec.le_def.mpr hlt.le)]
    omega

theorem distance_eq_zero_iff {code target : Word16} : distance code target = 0 ↔ code = target := by
  rw [distance_eq, ← BitVec.toNat_inj]
  omega

/-- An advance stops at a target nearer than its rate. -/
theorem advanceCode_near {code target rate : Word16} (h : distance code target ≤ rate.toNat) :
    advanceCode code target rate = target := by
  unfold distance at h
  unfold advanceCode
  by_cases hle : code ≤ target
  · rw [if_pos hle] at h ⊢
    exact if_pos (BitVec.le_def.mpr h)
  · rw [if_neg hle] at h ⊢
    exact if_pos (BitVec.le_def.mpr h)

/-- A farther target is approached by the rate. -/
theorem advanceCode_far {code target rate : Word16} (h : rate.toNat < distance code target) :
    advanceCode code target rate = if code ≤ target then code + rate else code - rate := by
  unfold distance at h
  unfold advanceCode
  by_cases hle : code ≤ target
  · rw [if_pos hle] at h
    rw [if_pos hle, if_pos hle, if_neg (fun hnear => absurd (BitVec.le_def.mp hnear) (Nat.not_le.mpr h))]
  · rw [if_neg hle] at h
    rw [if_neg hle, if_neg hle, if_neg (fun hnear => absurd (BitVec.le_def.mp hnear) (Nat.not_le.mpr h))]

/-- An advance takes its rate off the distance. -/
theorem distance_advanceCode (code target rate : Word16) :
    distance (advanceCode code target rate) target = distance code target - rate.toNat := by
  rcases Nat.lt_or_ge rate.toNat (distance code target) with hfar | hnear
  · rw [advanceCode_far hfar]
    rw [distance_eq] at hfar
    rw [distance_eq, distance_eq]
    have hcode := code.isLt
    have htarget := target.isLt
    split
    · next hle =>
      have hnat := BitVec.le_def.mp hle
      rw [BitVec.toNat_add_of_lt (by omega)]
      omega
    · next hle =>
      have hnat := BitVec.lt_def.mp (BitVec.not_le.mp hle)
      rw [BitVec.toNat_sub_of_le (BitVec.le_def.mpr (by omega))]
      omega
  · rw [advanceCode_near hnear, distance_eq_zero_iff.mpr rfl]
    omega

theorem advanceCode_ne_target {code target rate : Word16} (h : rate.toNat < distance code target) :
    advanceCode code target rate ≠ target := by
  intro hsame
  have hzero := distance_eq_zero_iff.mpr hsame
  rw [distance_advanceCode] at hzero
  omega

theorem distance_advances (code target rate : Word16) (n : Nat) :
    distance ((fun now => advanceCode now target rate)^[n] code) target = distance code target - n * rate.toNat := by
  induction n with
  | zero => rw [Nat.zero_mul]; rfl
  | succ n ih =>
    rw [Function.iterate_succ_apply', distance_advanceCode, ih, Nat.succ_mul]
    omega

/-- Settles O33: every advance takes the rate off the distance, and a move is at its target when none is left. -/
theorem moveTakesRoundedUpAdvances : Obligations.MoveTakesRoundedUpAdvances := by
  intro code target rate n hrate
  change _ ↔ distance code target ≤ n * rate.toNat
  rw [← distance_eq_zero_iff, distance_advances]
  omega

/-! ## MOVE_ADVANCE (R77) -/

section
variable {u : ChannelUnit} {mv : Move} (tag : Word32)

theorem ChannelUnit.endMove_unchecked {origin : MoveOrigin} {required : Bool} (u : ChannelUnit)
    (h : origin = .fallback ∨ required = false) : u.endMove origin required = { u with drive := .steady } := by
  rcases h with rfl | rfl
  · cases required <;> rfl
  · cases origin <;> rfl

theorem ChannelUnit.moveAdvance_idle (h : ∀ mv, u.drive = .moving mv → mv.advanceDue = false) :
    u.moveAdvance tag = (u, []) := by
  unfold ChannelUnit.moveAdvance
  cases hdrive : u.drive with
  | steady | checking ck => rfl
  | moving mv => exact if_neg (ne_true_of_eq_false (h mv hdrive))

theorem ChannelUnit.moveAdvance_far (hdrive : u.drive = .moving mv) (hdue : mv.advanceDue = true)
    (h : mv.rate.toNat < distance u.code mv.target) :
    u.moveAdvance tag =
      ({ u with
        code := if u.code ≤ mv.target then u.code + mv.rate else u.code - mv.rate
        drive := .moving { mv with advanceDue := false } }, []) := by
  simp only [ChannelUnit.moveAdvance, hdrive, if_pos hdue, if_neg (advanceCode_ne_target h)]
  rw [advanceCode_far h]

/-- An advance that reaches the target ends the move; a move of another origin than STEP concerns no list. -/
theorem ChannelUnit.moveAdvance_ends (hdrive : u.drive = .moving mv) (hdue : mv.advanceDue = true)
    (h : distance u.code mv.target ≤ mv.rate.toNat) (horigin : mv.origin ≠ .step) :
    u.moveAdvance tag = ({ u with code := mv.target }.endMove mv.origin mv.checkRequired, []) := by
  simp only [ChannelUnit.moveAdvance, hdrive, if_pos hdue, advanceCode_near h, if_true, if_neg horigin]

/-- The end of a step's move tells a RUNNING list whether its step is now in CHECK or in HOLD (R114). -/
theorem ChannelUnit.moveAdvance_step (hdrive : u.drive = .moving mv) (hdue : mv.advanceDue = true)
    (h : distance u.code mv.target ≤ mv.rate.toNat) (horigin : mv.origin = .step) {r : Runtime} (hlist : u.list = .running r) :
    u.moveAdvance tag =
      ({ u with
        code := mv.target
        drive :=
          if mv.checkRequired then
            .checking { origin := .step, attempt := 1, settleRemaining := u.config.policy.settleTime, previous := none }
          else .steady
        list := .running { r with phase := if mv.checkRequired then .check else .hold } } : ChannelUnit).finish tag := by
  simp only [ChannelUnit.moveAdvance, hdrive, if_pos hdue, advanceCode_near h, if_true, horigin]
  cases hcheck : mv.checkRequired with
  | false | true =>
    simp only [ChannelUnit.endMove, ChannelUnit.startCheck, hlist, ListState.mapRuntime, Drive.stepPhase]
    rfl

end

/-- Settles O32: the distance decides whether the advance ends the move, and its origin what then follows. -/
theorem moveAdvanceOutcomes : Obligations.MoveAdvanceOutcomes := by
  intro c s hreset u
  have event {t : State} (h : s.channelEvent c (ChannelUnit.moveAdvance s.timeTag) = t) : exec (.moveAdvance c) s = .next t :=
    congrArg Host.Outcome.next ((if_neg (ne_true_of_eq_false hreset)).trans h)
  refine ⟨fun hidle => event (State.channelEvent_unchanged (ChannelUnit.moveAdvance_idle _ hidle)), ?_⟩
  intro mv hdrive hdue distance check
  refine ⟨fun hfar => event (State.channelEvent_silent (ChannelUnit.moveAdvance_far _ hdrive hdue hfar)),
    fun hnear hcheck horigin => event (State.channelEvent_silent ?unchecked),
    fun hnear horigin hcheck => event (State.channelEvent_silent ?checked),
    fun hnear horigin r hlist => event (State.channelEvent_congr ?step)⟩
  case unchecked =>
    exact (ChannelUnit.moveAdvance_ends _ hdrive hdue hnear horigin).trans
      (congrArg (·, []) (ChannelUnit.endMove_unchecked _ hcheck))
  case checked =>
    have hnotStep : mv.origin ≠ .step := by rw [horigin]; exact nofun
    rw [ChannelUnit.moveAdvance_ends _ hdrive hdue hnear hnotStep, horigin, hcheck]
    rfl
  case step => exact ChannelUnit.moveAdvance_step _ hdrive hdue hnear horigin hlist

end Sys2Proof.Machine
end

section
/-!
The outcomes of a check (R83 to R86, R115, R133 to R136, R142): which rule a settle expiry takes, and what it leaves and writes.
-/

namespace Sys2Proof.Machine

section
variable {m : Master} {c : Ch} {s : State}

theorem exec_settleExpiry (hreset : s.inReset = false) (raw : FaultSet) :
    exec (.settleExpiry c raw) s = .next (s.channelEvent c (ChannelUnit.settleExpiry s.timeTag raw)) :=
  congrArg Host.Outcome.next (if_neg (ne_true_of_eq_false hreset))

end

section
variable {u : ChannelUnit} {ck : Check} {r : Runtime} (tag : Word32) (raw : FaultSet) (v : Verdict)

/-! ## The rule that a settle expiry takes (R83) -/

theorem ChannelUnit.settleExpiry_early (hdrive : u.drive = .checking ck) (h : ck.settleRemaining ≠ 0) :
    u.settleExpiry tag raw = (u, []) := by
  rw [ChannelUnit.settleExpiry, hdrive]
  exact if_neg h

theorem ChannelUnit.settleExpiry_passes (hdrive : u.drive = .checking ck) (hdue : ck.settleRemaining = 0)
    (h : (verdictOf u.config.policy.counted raw).counted = 0) :
    u.settleExpiry tag raw = u.checkPass tag ck (verdictOf u.config.policy.counted raw) := by
  rw [ChannelUnit.settleExpiry, hdrive]
  exact (if_pos hdue).trans (if_pos h)

theorem ChannelUnit.settleExpiry_retries (hdrive : u.drive = .checking ck) (hdue : ck.settleRemaining = 0)
    (h : (verdictOf u.config.policy.counted raw).counted ≠ 0) (hleft : ck.attempt ≤ u.config.policy.retryLimit) :
    u.settleExpiry tag raw = (u.retry ck (verdictOf u.config.policy.counted raw), []) := by
  rw [ChannelUnit.settleExpiry, hdrive]
  exact (if_pos hdue).trans ((if_neg h).trans (if_pos hleft))

theorem ChannelUnit.settleExpiry_fails (hdrive : u.drive = .checking ck) (hdue : ck.settleRemaining = 0)
    (h : (verdictOf u.config.policy.counted raw).counted ≠ 0) (hlast : u.config.policy.retryLimit < ck.attempt) :
    u.settleExpiry tag raw = u.checkFail tag ck (verdictOf u.config.policy.counted raw) := by
  rw [ChannelUnit.settleExpiry, hdrive]
  exact (if_pos hdue).trans ((if_neg h).trans (if_neg (BitVec.not_le.mpr hlast)))

/-! ## A passing check, and a failing one (R84, R86) -/

/-- What a check's end leaves of a channel unit, before the list and the fault action have their say (R84, R86). -/
def ChannelUnit.checked (ck : Check) (v : Verdict) (outcome : CheckOutcome) (u : ChannelUnit) : ChannelUnit :=
  { u with drive := .steady, lastCheck := some { attempts := ck.attempt, verdict := v, outcome := outcome } }

/-- A check that has failed leaves the fault latch set (R86). -/
def ChannelUnit.checkedFailing (ck : Check) (v : Verdict) (u : ChannelUnit) : ChannelUnit :=
  { u.checked ck v .failed with faultLatch := true }

/-- A passing check is told to the log when an attempt before it failed (R84). -/
def ChannelUnit.recovered (ck : Check) (u : ChannelUnit) : List ChannelEffect :=
  match ck.previous with
  | none => []
  | some before => [.record (.checkRecovered ck.attempt before u.activeStage u.code (u.checkedStep ck.origin))]

theorem ChannelUnit.checkPass_write (u : ChannelUnit) (h : ck.origin = .write) :
    u.checkPass tag ck v = (u.checked ck v .passed, u.recovered ck) := by
  rw [ChannelUnit.checkPass, h]
  unfold ChannelUnit.recovered
  rw [h]
  rfl

theorem ChannelUnit.checkFail_write (u : ChannelUnit) (h : ck.origin = .write) :
    u.checkFail tag ck v =
      ((u.checkedFailing ck v).applyAction u.config.policy.faultAction,
        [.record (.checkFailed ck.attempt v u.activeStage u.code none), .notice .fault]) := by
  rw [ChannelUnit.checkFail, h]
  rfl

/-- The list in the course of a step: PAUSED or RUNNING. -/
def ListState.inStep (paused : Bool) (r : Runtime) : ListState := if paused then .paused r else .running r

theorem ListState.inStep_runtime (paused : Bool) (r : Runtime) : (ListState.inStep paused r).runtime? = some r := by
  cases paused <;> rfl

theorem ListState.inStep_mapRuntime (f : Runtime → Runtime) (paused : Bool) (r : Runtime) :
    (ListState.inStep paused r).mapRuntime f = .inStep paused (f r) := by
  cases paused <;> rfl

theorem ChannelUnit.checkedStep_inStep {paused : Bool} (hlist : u.list = .inStep paused r) :
    u.checkedStep .step = some (r.index, r.passCount) := by
  rw [ChannelUnit.checkedStep, hlist, ListState.inStep_runtime]
  rfl

/-- A passing check of a step brings the step to HOLD (R115). -/
theorem ChannelUnit.checkPass_step {paused : Bool} (h : ck.origin = .step) (hlist : u.list = .inStep paused r) :
    u.checkPass tag ck v =
      let rest := ({ u.checked ck v .passed with list := .inStep paused { r with phase := .hold } } : ChannelUnit).finish tag
      (rest.1, u.recovered ck ++ rest.2) := by
  rw [ChannelUnit.checkPass, h]
  unfold ChannelUnit.recovered
  rw [h]
  simp only [hlist, ListState.inStep_mapRuntime]
  rfl

/-- A failing check of a step leaves the fault latch set, and the rest to the on-fault rule (R86). -/
theorem ChannelUnit.checkFail_step {paused : Bool} (h : ck.origin = .step) (hlist : u.list = .inStep paused r) :
    u.checkFail tag ck v =
      let rest := (u.checkedFailing ck v).onFault tag
      (rest.1,
        [.record (.checkFailed ck.attempt v u.activeStage u.code (some (r.index, r.passCount))), .notice .fault] ++ rest.2) := by
  rw [ChannelUnit.checkFail, h, ChannelUnit.checkedStep_inStep hlist]
  rfl

/-! ## The on-fault rule (R133 to R136) -/

theorem ChannelUnit.onFault_stop {paused : Bool} (hlist : u.list = .inStep paused r) (h : u.descriptor.onFault = .stop) :
    u.onFault tag =
      ({ u with list := .loaded }.applyAction u.config.policy.faultAction,
        [.record (.listStopped .fault (some r.passCount) (some r.index)), .notice .list]) := by
  simp only [ChannelUnit.onFault, hlist, ListState.inStep_runtime, h]

theorem ChannelUnit.onFault_goesOn {paused : Bool} (hlist : u.list = .inStep paused r) (h : u.descriptor.onFault ≠ .stop) :
    u.onFault tag =
      ({ u with
        list := .inStep paused
          { r with
            phase := .hold
            pendingStop := if u.descriptor.onFault = .finishPass then some .fault else r.pendingStop } } : ChannelUnit).finish
        tag := by
  simp only [ChannelUnit.onFault, hlist, ListState.inStep_runtime]
  cases hfault : u.descriptor.onFault
  case stop => exact absurd hfault h
  all_goals
    simp only [ListState.inStep_mapRuntime]
    rfl

/-- A PAUSED list ends no step (R142). -/
theorem ChannelUnit.finish_paused (h : u.list = .paused r) : u.finish tag = (u, []) :=
  ChannelUnit.finish_none tag (endingStep_of_not_running (by rw [h]; exact nofun))

end

/-- Settles O34: the verdict and the attempts left decide between pass, retry and failure; a WRITE's check concerns no list. -/
theorem settleExpiryOutcomes : Obligations.SettleExpiryOutcomes := by
  intro c raw ck s hreset hdrive u v ended
  have event {t : State} (h : s.channelEvent c (ChannelUnit.settleExpiry s.timeTag raw) = t) :
      exec (.settleExpiry c raw) s = .next t := (exec_settleExpiry hreset raw).trans (congrArg _ h)
  have passes (hdue : ck.settleRemaining = 0) (h : v.counted = 0) := ChannelUnit.settleExpiry_passes s.timeTag raw hdrive hdue h
  refine ⟨fun hearly => event (State.channelEvent_unchanged (ChannelUnit.settleExpiry_early _ raw hdrive hearly)),
    fun hdue hcounted hleft => event (State.channelEvent_silent ?retry),
    fun hdue hcounted horigin hfirst => event (State.channelEvent_silent ?passed),
    fun hdue hcounted horigin before m hprevious hheld => event (State.channelEvent_held (es := [.record _]) hheld ?recovered),
    fun hdue hcounted hlast horigin m hheld => event (State.channelEvent_held (es := [.record _, .notice .fault]) hheld ?failed),
    fun hdue hcounted horigin hfirst r hlist => event (State.channelEvent_silent ?paused)⟩
  case retry =>
    rw [ChannelUnit.settleExpiry_retries _ raw hdrive hdue hcounted hleft]
    refine congrArg (fun stage => (({ u with activeStage := stage, drive := _ } : ChannelUnit), [])) ?_
    show u.retryStage ck.attempt = _
    unfold ChannelUnit.retryStage
    cases (if ck.attempt = 1 then u.config.policy.retry1 else u.config.policy.retry2) with
    | same => rfl
    | alternate => cases u.activeStage <;> rfl
  case passed =>
    rw [passes hdue hcounted, ChannelUnit.checkPass_write _ _ _ horigin, ChannelUnit.recovered, hfirst]
    rfl
  case recovered =>
    rw [passes hdue hcounted, ChannelUnit.checkPass_write _ _ _ horigin, ChannelUnit.recovered, hprevious, horigin]
    rfl
  case failed =>
    exact (ChannelUnit.settleExpiry_fails _ raw hdrive hdue hcounted hlast).trans (ChannelUnit.checkFail_write _ _ _ horigin)
  case paused =>
    have hstep : u.list = .inStep true r := hlist
    rw [passes hdue hcounted, ChannelUnit.checkPass_step _ _ horigin hstep, ChannelUnit.recovered, hfirst]
    rw [ChannelUnit.finish_paused _ rfl]
    rfl

/-- Settles O35: a passing check brings the step to HOLD, a failing one follows the on-fault field; then the step may end. -/
theorem stepCheckOutcomes : Obligations.StepCheckOutcomes := by
  intro c raw ck r paused m s hreset hdrive hdue horigin hheld hlist u v ended held failed
  have hstep : u.list = .inStep paused r := hlist
  have event {t : State} (h : s.channelEvent c (ChannelUnit.settleExpiry s.timeTag raw) = t) :
      exec (.settleExpiry c raw) s = .next t := (exec_settleExpiry hreset raw).trans (congrArg _ h)
  have passes (h : v.counted = 0) :=
    (ChannelUnit.settleExpiry_passes s.timeTag raw hdrive hdue h).trans (ChannelUnit.checkPass_step s.timeTag v horigin hstep)
  have fails (h : v.counted ≠ 0) (hlast : u.config.policy.retryLimit < ck.attempt) :=
    (ChannelUnit.settleExpiry_fails s.timeTag raw hdrive hdue h hlast).trans (ChannelUnit.checkFail_step s.timeTag v horigin hstep)
  refine ⟨fun hcounted before hprevious => event (State.channelEvent_congr ?recovered),
    fun hcounted hfirst => event (State.channelEvent_congr ?passed),
    fun hcounted hlast => ⟨fun hstop => event
      (State.channelEvent_held (es := [.record _, .notice .fault, .record _, .notice .list]) hheld ?stops),
      fun hgoes => event (State.channelEvent_congr ?goesOn)⟩⟩
  case recovered =>
    rw [passes hcounted, ChannelUnit.recovered, hprevious, horigin, ChannelUnit.checkedStep_inStep hstep]
    rfl
  case passed =>
    rw [passes hcounted, ChannelUnit.recovered, hfirst]
    rfl
  case stops =>
    rw [fails hcounted hlast, ChannelUnit.onFault_stop (u := u.checkedFailing ck v) _ hstep hstop]
    rfl
  case goesOn =>
    rw [fails hcounted hlast, ChannelUnit.onFault_goesOn (u := u.checkedFailing ck v) _ hstep hgoes]
    rfl

end Sys2Proof.Machine
end

section
/-!
The start of a step (R113, R114, R117), and the expiries that lead to it or to its end (R116, R119, R132).
-/

namespace Sys2Proof.Machine

section
variable {u : ChannelUnit} {r : Runtime} {st : StepRecord} (tag : Word32)

/-! ## The edge mark that a step counts (R117) -/

theorem ChannelUnit.useMark_eq (hold : HoldOn) (u : ChannelUnit) :
    u.useMark tag hold =
      { u with
        mark0 := if hold = .trg0 ∧ u.mark0 = some tag then none else u.mark0
        mark1 := if hold = .trg1 ∧ u.mark1 = some tag then none else u.mark1 } := by
  cases hold with
  | none | proceed => rfl
  | trg0 => by_cases h : u.mark0 = some tag <;> simp [ChannelUnit.useMark, HoldOn.line, ChannelUnit.mark, ChannelUnit.setMark, h]
  | trg1 => by_cases h : u.mark1 = some tag <;> simp [ChannelUnit.useMark, HoldOn.line, ChannelUnit.mark, ChannelUnit.setMark, h]

theorem ChannelUnit.markedEdge_eq (hold : HoldOn) (u : ChannelUnit) :
    u.markedEdge tag hold = decide (hold = .trg0 ∧ u.mark0 = some tag ∨ hold = .trg1 ∧ u.mark1 = some tag) := by
  rw [Bool.eq_iff_iff, decide_eq_true_iff]
  cases hold with
  | none | proceed => simp [ChannelUnit.markedEdge, HoldOn.line]
  | trg0 => exact decide_eq_true_iff.trans (by simp [ChannelUnit.mark])
  | trg1 => exact decide_eq_true_iff.trans (by simp [ChannelUnit.mark])

/-! ## The start of a step (R113) -/

/-- The unit on which the step has started, with the code, the drive and the run phase that its move's start leaves. -/
def ChannelUnit.stepStarted (r : Runtime) (st : StepRecord) (code : Word16) (drive : Drive) (phase : RunPhase)
    (u : ChannelUnit) : ChannelUnit :=
  { u with
    code := code, drive := drive
    mark0 := if st.hold = .trg0 ∧ u.mark0 = some tag then none else u.mark0
    mark1 := if st.hold = .trg1 ∧ u.mark1 = some tag then none else u.mark1
    list := .running
      { r with
        phase := phase, dwellTimer := if st.dwell = 0 then none else some st.dwell
        triggerSeen := decide (st.hold = .trg0 ∧ u.mark0 = some tag ∨ st.hold = .trg1 ∧ u.mark1 = some tag)
        proceedSeen := false } }

theorem ChannelUnit.startStep_runs (hslot : u.slots[r.index] = some st)
    (hrate : effectiveRate st.rate u.config.range.maxRate ≠ 0) (hway : st.target ≠ u.code) :
    u.startStep tag r =
      u.stepStarted tag r st u.code
        (.moving
          { target := st.target, rate := effectiveRate st.rate u.config.range.maxRate, origin := .step
            checkRequired := st.check, advanceDue := false }) .move := by
  rw [ChannelUnit.startStep, hslot]
  dsimp only
  rw [ChannelUnit.markedEdge_eq, ChannelUnit.startMove_runs _ _ (by rwa [ChannelUnit.useMark_eq])
    (by rwa [ChannelUnit.useMark_eq]), ChannelUnit.useMark_eq]
  rfl

theorem ChannelUnit.startStep_ends (hslot : u.slots[r.index] = some st)
    (h : effectiveRate st.rate u.config.range.maxRate = 0 ∨ st.target = u.code) :
    u.startStep tag r =
      u.stepStarted tag r st st.target
        (if st.check then
          .checking { origin := .step, attempt := 1, settleRemaining := u.config.policy.settleTime, previous := none }
        else .steady)
        (if st.check then .check else .hold) := by
  rw [ChannelUnit.startStep, hslot]
  dsimp only
  rw [ChannelUnit.markedEdge_eq, ChannelUnit.startMove_ends _ _ (by rwa [ChannelUnit.useMark_eq]), ChannelUnit.useMark_eq]
  cases st.check <;> rfl

end

/-- Settles O37: a step's start is the use of its edge mark and the start of its move, which runs or ends at once. -/
theorem stepStart : Obligations.StepStart := by
  intro tag r st u hslot effective seen0 seen1 started
  refine ⟨fun hrate hway => ChannelUnit.startStep_runs tag hslot hrate hway, fun hends hcheck => ?unchecked,
    fun hends hcheck => ?checked⟩
  case unchecked =>
    rw [ChannelUnit.startStep_ends tag hslot hends, hcheck]
    rfl
  case checked =>
    rw [ChannelUnit.startStep_ends tag hslot hends, hcheck]
    rfl

/-! ## Dwell and gap (R116, R132) -/

section
variable {u : ChannelUnit} {r : Runtime} (tag : Word32)

theorem ChannelUnit.dwellExpiry_due (hlist : u.list = .running r) (h : r.dwellTimer = some 0) :
    u.dwellExpiry tag = ({ u with list := .running { r with dwellTimer := none } } : ChannelUnit).finish tag := by
  rw [ChannelUnit.dwellExpiry, hlist]
  exact if_pos h

theorem ChannelUnit.dwellExpiry_idle (h : ∀ r, u.list = .running r → r.dwellTimer ≠ some 0) :
    u.dwellExpiry tag = (u, []) := by
  unfold ChannelUnit.dwellExpiry
  cases hlist : u.list with
  | running r => exact if_neg (h r hlist)
  | empty | loaded | armed l | paused r => rfl

theorem ChannelUnit.gapExpiry_due (hlist : u.list = .running r) (h : r.phase = .gap 0) :
    u.gapExpiry tag = (u.beginPass tag r).finish tag := by
  rw [ChannelUnit.gapExpiry, hlist]
  exact if_pos h

theorem ChannelUnit.gapExpiry_idle (h : ∀ r, u.list = .running r → r.phase ≠ .gap 0) : u.gapExpiry tag = (u, []) := by
  unfold ChannelUnit.gapExpiry
  cases hlist : u.list with
  | running r => exact if_neg (h r hlist)
  | empty | loaded | armed l | paused r => rfl

end

/-- Settles O44: an expiry that is due meets the dwell or begins the pass, and then the step may end. -/
theorem dwellAndGapExpiries : Obligations.DwellAndGapExpiries := by
  intro c s hreset u
  have dwell {t : State} (h : s.channelEvent c (ChannelUnit.dwellExpiry s.timeTag) = t) : exec (.dwellExpiry c) s = .next t :=
    congrArg Host.Outcome.next ((if_neg (ne_true_of_eq_false hreset)).trans h)
  have gap {t : State} (h : s.channelEvent c (ChannelUnit.gapExpiry s.timeTag) = t) : exec (.gapExpiry c) s = .next t :=
    congrArg Host.Outcome.next ((if_neg (ne_true_of_eq_false hreset)).trans h)
  refine ⟨fun r hlist hdue => ?met, fun h => dwell (State.channelEvent_unchanged (ChannelUnit.dwellExpiry_idle _ h)),
    fun r hlist hdue => gap (State.channelEvent_congr (ChannelUnit.gapExpiry_due _ hlist hdue)),
    fun h => gap (State.channelEvent_unchanged (ChannelUnit.gapExpiry_idle _ h))⟩
  case met =>
    have hdwell := ChannelUnit.dwellExpiry_due s.timeTag hlist hdue
    intro met
    exact ⟨fun hgoes => dwell (State.channelEvent_silent (hdwell.trans (ChannelUnit.finish_none s.timeTag hgoes))),
      dwell (State.channelEvent_congr hdwell)⟩

end Sys2Proof.Machine
end

section
/-!
The requests over a set that the requester holds: START, STOP, PAUSE, RESUME and PROCEED (R118, R124 to R126, R137 to R146).
-/

namespace Sys2Proof.Machine

section
variable {m : Master} {set : Word16} {s : State}

/-! ## A set that the requester holds -/

theorem toNat_lt_of_isChannelSet (h : isChannelSet set = true) : set.toNat < 4096 := by
  rw [isChannelSet, Bool.and_eq_true, decide_eq_true_iff, decide_eq_true_iff] at h
  exact h.2

theorem ownSet_holder (h : ∀ c : Ch, set.getLsbD c.val = true → s.holder c = some m) (take : State × Answer) :
    ownSet m (channelSetOf set) s take = take := by
  refine if_pos (State.holdsAll_iff.mpr fun c hc => h c ?_)
  rwa [channelSetOf_getLsbD] at hc

theorem State.allChannelsIn_word {ok : ChannelUnit → Bool} :
    s.allChannelsIn (channelSetOf set) ok = true ↔ ∀ c : Ch, set.getLsbD c.val = true → ok (s.channel c) = true := by
  rw [State.allChannelsIn_iff]
  simp only [channelSetOf_getLsbD]

theorem State.channelsWhere_word {ok : ChannelUnit → Bool} {c : Ch} :
    (s.channelsWhere (channelSetOf set) ok).getLsbD c.val = true ↔ set.getLsbD c.val = true ∧ ok (s.channel c) = true := by
  rw [State.channelsWhere_iff, channelSetOf_getLsbD]

theorem State.channelsWhere_none {set : ChannelSet} {ok : ChannelUnit → Bool}
    (h : ∀ c : Ch, set.getLsbD c.val = true → ok (s.channel c) = false) : s.channelsWhere set ok = 0 := by
  refine BitVec.eq_of_getLsbD_eq fun i hi => ?_
  refine (Bool.eq_false_iff.mpr fun hmem => ?_).trans BitVec.getLsbD_zero.symm
  obtain ⟨hc, hok⟩ := (State.channelsWhere_iff (c := ⟨i, hi⟩)).mp hmem
  rw [h ⟨i, hi⟩ hc] at hok
  exact Bool.false_ne_true hok

end

/-! ## START (R124 to R126) -/

section
variable {m : Master} {set : Word16} {s : State}

theorem takeStart_latched (hown : ∀ c : Ch, set.getLsbD c.val = true → s.holder c = some m) (source : Option Line)
    (h : ∃ c : Ch, set.getLsbD c.val = true ∧ (s.channel c).faultLatch = true) :
    takeStart m (channelSetOf set) source s = (s, .refuse .faulted) := by
  obtain ⟨c, hc, hlatch⟩ := h
  have hnot : s.allChannelsIn (channelSetOf set) (fun u => !u.faultLatch) = false := by
    rw [Bool.eq_false_iff]
    intro hall
    have hclear := State.allChannelsIn_word.mp hall c hc
    rw [hlatch] at hclear
    exact Bool.false_ne_true hclear
  rw [takeStart, ownSet_holder hown, if_pos hnot]

theorem latchesClear_word (h : ¬ ∃ c : Ch, set.getLsbD c.val = true ∧ (s.channel c).faultLatch = true) :
    s.allChannelsIn (channelSetOf set) (fun u => !u.faultLatch) = true :=
  State.allChannelsIn_word.mpr fun c hc => by
    rw [Bool.not_eq_true', Bool.eq_false_iff]
    exact fun hlatch => h ⟨c, hc, hlatch⟩

theorem startable_word : s.allChannelsIn (channelSetOf set) ChannelUnit.startable = true ↔
    ∀ c : Ch, set.getLsbD c.val = true → (s.channel c).list = .loaded ∧ (s.channel c).drive = .steady := by
  rw [State.allChannelsIn_word]
  simp only [ChannelUnit.startable_iff]

theorem takeStart_state (hown : ∀ c : Ch, set.getLsbD c.val = true → s.holder c = some m) (source : Option Line)
    (hclear : ¬ ∃ c : Ch, set.getLsbD c.val = true ∧ (s.channel c).faultLatch = true)
    (h : ¬ ∀ c : Ch, set.getLsbD c.val = true → (s.channel c).list = .loaded ∧ (s.channel c).drive = .steady) :
    takeStart m (channelSetOf set) source s = (s, .refuse .wrongState) := by
  rw [takeStart, ownSet_holder hown, if_neg (ne_false_of_eq_true (latchesClear_word hclear)),
    if_pos (Bool.eq_false_iff.mpr fun hready => h (startable_word.mp hready))]

theorem takeStart_taken (hown : ∀ c : Ch, set.getLsbD c.val = true → s.holder c = some m) (source : Option Line)
    (hset : set.toNat < 4096) (hclear : ¬ ∃ c : Ch, set.getLsbD c.val = true ∧ (s.channel c).faultLatch = true)
    (h : ∀ c : Ch, set.getLsbD c.val = true → (s.channel c).list = .loaded ∧ (s.channel c).drive = .steady) :
    takeStart m (channelSetOf set) source s =
      (s.listEvents m (channelSetOf set) (ChannelUnit.start s.timeTag source), .ok (bytes16 set ++ [startedCode source])) := by
  rw [takeStart, ownSet_holder hown, if_neg (ne_false_of_eq_true (latchesClear_word hclear)),
    if_neg (ne_false_of_eq_true (startable_word.mpr h)), setBytes_channelSetOf hset]

end

/-- Settles O39: the latches are checked before the lists and drives, and then every channel of the set takes its START. -/
theorem startOutcomes : Obligations.StartOutcomes := by
  intro m set source s hpass hown answers latched ready armed
  have hset : set.toNat < 4096 := by
    obtain ⟨-, hok, -⟩ := hpass
    rw [Instr.parametersOk, Bool.and_eq_true] at hok
    exact toNat_lt_of_isChannelSet hok.1
  have hend : ∀ c : Ch, set.getLsbD c.val = true → (s.endFrame m).holder c = some m := hown
  refine ⟨fun h => request_answers hpass rfl (takeStart_latched hend _ h),
    fun hclear hnot => request_answers hpass rfl (takeStart_state hend _ hclear hnot), fun hclear hready => ?taken⟩
  have taken (line : Option Line) := takeStart_taken hend line hset hclear hready
  refine ⟨?now, ?first, ?second⟩
  case now =>
    rintro rfl
    exact request_answers hpass rfl (taken none)
  case first =>
    rintro rfl
    exact request_answers hpass rfl (taken (some .trg0))
  case second =>
    rintro rfl
    exact request_answers hpass rfl (taken (some .trg1))

end Sys2Proof.Machine
end

section
/-!
STOP and PAUSE over a set that the requester holds (R137 to R142).
-/

namespace Sys2Proof.Machine

/-! ## What a STOP does to one list (R138, R139) -/

section
variable {u : ChannelUnit} {r : Runtime}

theorem ListState.active_cases {l : ListState} (h : l.active = true) :
    (∃ line, l = .armed line) ∨ ∃ r, l = .running r ∨ l = .paused r := by
  cases l with
  | armed line => exact .inl ⟨line, rfl⟩
  | running r => exact .inr ⟨r, .inl rfl⟩
  | paused r => exact .inr ⟨r, .inr rfl⟩
  | empty | loaded => cases h

theorem ChannelUnit.stopNow_list (h : u.list.active = true) : u.stopNow.1.list = .loaded := by
  rcases ListState.active_cases h with ⟨line, hlist⟩ | ⟨r, hlist⟩
  · rw [ChannelUnit.stopNow_armed hlist]
  · by_cases hstop : r.pendingStop = some .fault
    · rw [ChannelUnit.stopNow_fault hlist hstop]
      exact ChannelUnit.applyAction_list ..
    · rw [ChannelUnit.stopNow_request hlist hstop]
      rfl

theorem ChannelUnit.stopAtPassEnd_running (h : u.list = .running r) (hstep : ∀ g, r.phase ≠ .gap g) :
    u.stopAtPassEnd = ({ u with list := .running r.requestStop }, []) := by
  rw [ChannelUnit.stopAtPassEnd_step (.inl h) hstep, h]
  rfl

theorem ChannelUnit.stopAtPassEnd_paused (h : u.list = .paused r) (hstep : ∀ g, r.phase ≠ .gap g) :
    u.stopAtPassEnd = ({ u with list := .paused r.requestStop }, []) := by
  rw [ChannelUnit.stopAtPassEnd_step (.inr h) hstep, h]
  rfl

/-- The list is in the course of a step: it has a runtime record, and no gap runs. -/
def Runtime.steps (r : Runtime) : Prop := ∀ g, r.phase ≠ .gap g

theorem Runtime.steps_or_gap (r : Runtime) : r.steps ∨ ∃ g, r.phase = .gap g := by
  by_cases h : ∃ g, r.phase = .gap g
  · exact .inr h
  · exact .inl fun g hg => h ⟨g, hg⟩

/-- A STOP of mode AT_PASS_END leaves a list LOADED, or RUNNING or PAUSED as it was in the course of a step. -/
theorem ChannelUnit.stopAtPassEnd_list (h : u.list.active = true) :
    (∃ r, u.list = .running r ∧ r.steps ∧ u.stopAtPassEnd.1.list = .running r.requestStop) ∨
      (∃ r, u.list = .paused r ∧ r.steps ∧ u.stopAtPassEnd.1.list = .paused r.requestStop) ∨
      (∀ r, u.list = .running r ∨ u.list = .paused r → ¬ r.steps) ∧ u.stopAtPassEnd.1.list = .loaded := by
  rcases ListState.active_cases h with ⟨line, hlist⟩ | ⟨r, hlist⟩
  · refine .inr (.inr ⟨fun r hr => ?_, ?_⟩)
    · rw [hlist] at hr
      rcases hr with hr | hr <;> cases hr
    · rw [ChannelUnit.stopAtPassEnd_armed hlist, ChannelUnit.stopNow_list h]
  · rcases r.steps_or_gap with hsteps | ⟨g, hgap⟩
    · rcases hlist with hlist | hlist
      · exact .inl ⟨r, hlist, hsteps, by rw [ChannelUnit.stopAtPassEnd_running hlist hsteps]⟩
      · exact .inr (.inl ⟨r, hlist, hsteps, by rw [ChannelUnit.stopAtPassEnd_paused hlist hsteps]⟩)
    · refine .inr (.inr ⟨fun q hq hsteps => ?_, ?_⟩)
      · have hsame : q = r := by rcases hlist with e | e <;> rw [e] at hq <;> rcases hq with e' | e' <;> cases e' <;> rfl
        exact hsteps g (hsame ▸ hgap)
      · rw [ChannelUnit.stopAtPassEnd_gap hlist hgap, ChannelUnit.stopNow_list h]

theorem ChannelUnit.stopAtPassEnd_isRunning (h : u.list.active = true) :
    u.stopAtPassEnd.1.list.isRunning = true ↔ ∃ r, u.list = .running r ∧ r.steps := by
  rcases ChannelUnit.stopAtPassEnd_list h with ⟨r, hlist, hsteps, e⟩ | ⟨r, hlist, hsteps, e⟩ | ⟨hnone, e⟩ <;> rw [e]
  · exact iff_of_true rfl ⟨r, hlist, hsteps⟩
  · exact iff_of_false Bool.false_ne_true fun ⟨q, hq, _⟩ => nomatch hlist.symm.trans hq
  · exact iff_of_false Bool.false_ne_true fun ⟨q, hq, hsteps⟩ => hnone q (.inl hq) hsteps

theorem ChannelUnit.stopAtPassEnd_isPaused (h : u.list.active = true) :
    u.stopAtPassEnd.1.list.isPaused = true ↔ ∃ r, u.list = .paused r ∧ r.steps := by
  rcases ChannelUnit.stopAtPassEnd_list h with ⟨r, hlist, hsteps, e⟩ | ⟨r, hlist, hsteps, e⟩ | ⟨hnone, e⟩ <;> rw [e]
  · exact iff_of_false Bool.false_ne_true fun ⟨q, hq, _⟩ => nomatch hlist.symm.trans hq
  · exact iff_of_true rfl ⟨r, hlist, hsteps⟩
  · exact iff_of_false Bool.false_ne_true fun ⟨q, hq, hsteps⟩ => hnone q (.inr hq) hsteps

end

/-! ## STOP (R137) -/

section
variable {m : Master} {set : Word16} {s : State}

theorem active_word : s.allChannelsIn (channelSetOf set) (fun u => u.list.active) = true ↔
    ∀ c : Ch, set.getLsbD c.val = true → (s.channel c).list.active = true := State.allChannelsIn_word

theorem takeStop_state (hown : ∀ c : Ch, set.getLsbD c.val = true → s.holder c = some m) (mode : Byte)
    (h : ¬ ∀ c : Ch, set.getLsbD c.val = true → (s.channel c).list.active = true) :
    takeStop m (channelSetOf set) mode s = (s, .refuse .wrongState) := by
  rw [takeStop, ownSet_holder hown, if_pos (Bool.eq_false_iff.mpr fun hactive => h (active_word.mp hactive))]

theorem takeStop_taken (hown : ∀ c : Ch, set.getLsbD c.val = true → s.holder c = some m) {mode : Byte}
    (hset : set.toNat < 4096) (h : ∀ c : Ch, set.getLsbD c.val = true → (s.channel c).list.active = true)
    {f : ChannelUnit → Progress} (hmode : ChannelUnit.stop mode = f) {running paused : ChannelSet}
    (hrunning : (s.listEvents m (channelSetOf set) f).channelsWhere (channelSetOf set) (fun u => u.list.isRunning) = running)
    (hpaused : (s.listEvents m (channelSetOf set) f).channelsWhere (channelSetOf set) (fun u => u.list.isPaused) = paused) :
    takeStop m (channelSetOf set) mode s =
      (s.listEvents m (channelSetOf set) f, .ok (bytes16 set ++ setBytes running ++ setBytes paused)) := by
  rw [takeStop, ownSet_holder hown, if_neg (ne_false_of_eq_true (active_word.mpr h)), stopResults, hmode, hrunning, hpaused,
    setBytes_channelSetOf hset]

theorem ChannelUnit.stop_now : ChannelUnit.stop 0 = ChannelUnit.stopNow := funext fun _ => if_pos rfl

theorem ChannelUnit.stop_atPassEnd : ChannelUnit.stop 1 = ChannelUnit.stopAtPassEnd :=
  funext fun _ => if_neg (by decide)

/-- A STOP of mode NOW leaves no list of its set in the state that is asked for, when LOADED is not that state. -/
theorem stopNow_channelsWhere {ok : ListState → Bool} (hok : ok .loaded = false)
    (h : ∀ c : Ch, set.getLsbD c.val = true → (s.channel c).list.active = true) :
    (s.listEvents m (channelSetOf set) ChannelUnit.stopNow).channelsWhere (channelSetOf set) (fun u => ok u.list) = 0 :=
  State.channelsWhere_none fun c hc => by
    rw [State.listEvents_channel hc, ChannelUnit.stopNow_list (h c (channelSetOf_getLsbD set c ▸ hc)), hok]

theorem stopAtPassEnd_channelsWhere {ok : ListState → Bool} {c : Ch} :
    ((s.listEvents m (channelSetOf set) ChannelUnit.stopAtPassEnd).channelsWhere (channelSetOf set)
        (fun u => ok u.list)).getLsbD c.val = true ↔
      set.getLsbD c.val = true ∧ ok (s.channel c).stopAtPassEnd.1.list = true := by
  rw [State.channelsWhere_word]
  refine and_congr_right fun hc => ?_
  rw [State.listEvents_channel ((channelSetOf_getLsbD set c).trans hc)]

end

/-- Settles O40: the request is refused whole or reaches every list of its set; what it does to a list depends on the list's own
run phase and pending stop. -/
theorem stopOutcomes : Obligations.StopOutcomes := by
  constructor
  case left =>
    intro m set mode s hpass hown active stopped
    have hset : set.toNat < 4096 := by
      obtain ⟨-, hok, -⟩ := hpass
      rw [Instr.parametersOk, Bool.and_eq_true] at hok
      exact toNat_lt_of_isChannelSet hok.1
    have hend : ∀ c : Ch, set.getLsbD c.val = true → (s.endFrame m).holder c = some m := hown
    refine ⟨fun hnot => request_answers hpass rfl (takeStop_state hend _ hnot), fun hactive hmode => ?now,
      fun hactive hmode => ?atPassEnd⟩
    case now =>
      subst hmode
      exact request_answers hpass rfl (takeStop_taken (s := s.endFrame m) hend hset hactive ChannelUnit.stop_now
        (stopNow_channelsWhere (ok := ListState.isRunning) rfl hactive)
        (stopNow_channelsWhere (ok := ListState.isPaused) rfl hactive))
    case atPassEnd =>
      subst hmode
      refine ⟨_, _, request_answers hpass rfl
        (takeStop_taken (s := s.endFrame m) hend hset hactive ChannelUnit.stop_atPassEnd rfl rfl), fun c => ⟨?_, ?_⟩⟩
      · exact (stopAtPassEnd_channelsWhere (ok := ListState.isRunning)).trans
          (and_congr_right fun hc => ChannelUnit.stopAtPassEnd_isRunning (hactive c hc))
      · exact (stopAtPassEnd_channelsWhere (ok := ListState.isPaused)).trans
          (and_congr_right fun hc => ChannelUnit.stopAtPassEnd_isPaused (hactive c hc))
  case right =>
    intro u stopped
    refine ⟨fun line hlist => ⟨ChannelUnit.stopNow_armed hlist, ChannelUnit.stopAtPassEnd_armed hlist⟩, fun r hlist => ?_⟩
    intro index
    have hindex : index = r.stopIndex := rfl
    rw [hindex]
    refine ⟨ChannelUnit.stopNow_request hlist, ChannelUnit.stopNow_fault hlist,
      fun ⟨g, hgap⟩ => ChannelUnit.stopAtPassEnd_gap hlist hgap, fun hstep => ?_⟩
    intro kept
    have hkept : kept = r.requestStop := r.requestStop_eq.symm
    rw [hkept]
    exact ⟨fun h => ChannelUnit.stopAtPassEnd_running h hstep, fun h => ChannelUnit.stopAtPassEnd_paused h hstep⟩

/-! ## PAUSE (R141) -/

section
variable {m : Master} {set : Word16} {s : State}

theorem ListState.isRunning_iff {l : ListState} : l.isRunning = true ↔ ∃ r, l = .running r := by
  cases l with
  | running r => exact iff_of_true rfl ⟨r, rfl⟩
  | empty | loaded | armed line | paused r => exact iff_of_false Bool.false_ne_true nofun

theorem running_word : s.allChannelsIn (channelSetOf set) (fun u => u.list.isRunning) = true ↔
    ∀ c : Ch, set.getLsbD c.val = true → ∃ r, (s.channel c).list = .running r := by
  rw [State.allChannelsIn_word]
  simp only [ListState.isRunning_iff]

theorem takePause_state (hown : ∀ c : Ch, set.getLsbD c.val = true → s.holder c = some m)
    (h : ¬ ∀ c : Ch, set.getLsbD c.val = true → ∃ r, (s.channel c).list = .running r) :
    takePause m (channelSetOf set) s = (s, .refuse .wrongState) := by
  rw [takePause, ownSet_holder hown, if_pos (Bool.eq_false_iff.mpr fun hrunning => h (running_word.mp hrunning))]

theorem takePause_taken (hown : ∀ c : Ch, set.getLsbD c.val = true → s.holder c = some m) (hset : set.toNat < 4096)
    (h : ∀ c : Ch, set.getLsbD c.val = true → ∃ r, (s.channel c).list = .running r) :
    takePause m (channelSetOf set) s = (s.listEvents m (channelSetOf set) ChannelUnit.pause, .ok (bytes16 set)) := by
  rw [takePause, ownSet_holder hown, if_neg (ne_false_of_eq_true (running_word.mpr h)), setBytes_channelSetOf hset]

theorem ChannelUnit.stopMove_of_moving {u : ChannelUnit} {mv : Move} (h : u.drive = .moving mv) :
    u.stopMove = { u with drive := .steady } := by
  rw [ChannelUnit.stopMove, h]

end

/-- Settles O41: a pause stops a move at its current code, freezes the dwell, and keeps the rest of the runtime record. -/
theorem pauseOutcomes : Obligations.PauseOutcomes := by
  constructor
  case left =>
    intro m set s hpass hown running
    have hset : set.toNat < 4096 := by
      obtain ⟨-, hok, -⟩ := hpass
      exact toNat_lt_of_isChannelSet hok
    have hend : ∀ c : Ch, set.getLsbD c.val = true → (s.endFrame m).holder c = some m := hown
    exact ⟨fun hnot => request_answers hpass rfl (takePause_state hend hnot),
      fun hrunning => request_answers hpass rfl (takePause_taken hend hset hrunning)⟩
  case right =>
    intro u r hlist list
    refine ⟨fun hphase ⟨mv, hdrive⟩ => ?_, fun hphase => ChannelUnit.pause_other hlist hphase⟩
    rw [ChannelUnit.pause_move hlist hphase, ChannelUnit.stopMove_of_moving hdrive]
    rfl

end Sys2Proof.Machine
end

section
/-!
RESUME and PROCEED over a set that the requester holds (R118, R143, R144, R146), and the trigger edges (R117, R127, R184).
-/

namespace Sys2Proof.Machine

/-! ## What a RESUME does to one list (R143, R144) -/

section
variable {u : ChannelUnit} {r : Runtime} {st : StepRecord} (tag : Word32)

theorem ChannelUnit.continueMove_runs (hslot : u.slots[r.index] = some st) (hphase : r.phase = .move)
    (hrate : effectiveRate st.rate u.config.range.maxRate ≠ 0) (hway : st.target ≠ u.code) :
    u.continueMove r =
      { u with
        list := .running r
        drive := .moving
          { target := st.target, rate := effectiveRate st.rate u.config.range.maxRate, origin := .step
            checkRequired := st.check, advanceDue := false } } := by
  rw [ChannelUnit.continueMove, hslot]
  dsimp only
  rw [ChannelUnit.startMove_runs _ _ hrate hway, Drive.stepPhase, ← hphase]

theorem ChannelUnit.continueMove_ends (hslot : u.slots[r.index] = some st)
    (h : effectiveRate st.rate u.config.range.maxRate = 0 ∨ st.target = u.code) :
    u.continueMove r =
      { u with
        code := st.target
        drive :=
          if st.check = true then
            .checking { origin := .step, attempt := 1, settleRemaining := u.config.policy.settleTime, previous := none }
          else .steady
        list := .running { r with phase := if st.check = true then .check else .hold } } := by
  rw [ChannelUnit.continueMove, hslot]
  dsimp only
  rw [ChannelUnit.startMove_ends _ _ h]
  cases st.check <;> rfl

/-- A list that is not in HOLD ends no step. -/
theorem ChannelUnit.finish_of_phase (hlist : u.list = .running r) (h : r.phase ≠ .hold) : u.finish tag = (u, []) :=
  ChannelUnit.finish_none tag (endingStep_of_phase hlist h)

end

section
variable {m : Master} {set : Word16} {s : State}

theorem ListState.isPaused_iff {l : ListState} : l.isPaused = true ↔ ∃ r, l = .paused r :=
  ⟨ListState.exists_of_isPaused, fun ⟨_, e⟩ => e ▸ rfl⟩

theorem paused_word : s.allChannelsIn (channelSetOf set) (fun u => u.list.isPaused) = true ↔
    ∀ c : Ch, set.getLsbD c.val = true → ∃ r, (s.channel c).list = .paused r := by
  rw [State.allChannelsIn_word]
  simp only [ListState.isPaused_iff]

theorem takeResume_state (hown : ∀ c : Ch, set.getLsbD c.val = true → s.holder c = some m) (mode : Byte)
    (h : ¬ ∀ c : Ch, set.getLsbD c.val = true → ∃ r, (s.channel c).list = .paused r) :
    takeResume m (channelSetOf set) mode s = (s, .refuse .wrongState) := by
  rw [takeResume, ownSet_holder hown, if_pos (Bool.eq_false_iff.mpr fun hpaused => h (paused_word.mp hpaused))]

theorem takeResume_taken (hown : ∀ c : Ch, set.getLsbD c.val = true → s.holder c = some m) {mode : Byte}
    (hset : set.toNat < 4096) (h : ∀ c : Ch, set.getLsbD c.val = true → ∃ r, (s.channel c).list = .paused r)
    {f : ChannelUnit → Progress} (hmode : ChannelUnit.resume s.timeTag mode = f) :
    takeResume m (channelSetOf set) mode s = (s.listEvents m (channelSetOf set) f, .ok (bytes16 set)) := by
  rw [takeResume, ownSet_holder hown, if_neg (ne_false_of_eq_true (paused_word.mpr h)), hmode, setBytes_channelSetOf hset]

theorem ChannelUnit.resume_continue (tag : Word32) : ChannelUnit.resume tag 0 = ChannelUnit.resumeContinue tag :=
  funext fun _ => if_pos rfl

theorem ChannelUnit.resume_repeat (tag : Word32) : ChannelUnit.resume tag 1 = ChannelUnit.resumeRepeat tag :=
  funext fun _ => if_neg (by decide)

end

/-- Settles O42: CONTINUE takes a list up in the run phase in which it was paused, and REPEAT starts its step anew. -/
theorem resumeOutcomes : Obligations.ResumeOutcomes := by
  constructor
  case left =>
    intro m set mode s hpass hown paused resumed
    have hset : set.toNat < 4096 := by
      obtain ⟨-, hok, -⟩ := hpass
      rw [Instr.parametersOk, Bool.and_eq_true] at hok
      exact toNat_lt_of_isChannelSet hok.1
    have hend : ∀ c : Ch, set.getLsbD c.val = true → (s.endFrame m).holder c = some m := hown
    refine ⟨fun hnot => request_answers hpass rfl (takeResume_state hend _ hnot), fun hpaused hmode => ?_,
      fun hpaused hmode => ?_⟩
    · subst hmode
      exact request_answers hpass rfl
        (takeResume_taken (s := s.endFrame m) hend hset hpaused (ChannelUnit.resume_continue s.timeTag))
    · subst hmode
      exact request_answers hpass rfl
        (takeResume_taken (s := s.endFrame m) hend hset hpaused (ChannelUnit.resume_repeat s.timeTag))
  case right =>
    intro tag u r st hlist hslot effective
    refine ⟨fun hphase hrate hway => ?moves, fun hphase hends => ?ends, fun hphase => ?checks,
      fun hphase => ChannelUnit.resumeContinue_step hlist (.inr hphase),
      fun g hphase hg => ChannelUnit.resumeContinue_gap hlist hphase hg,
      fun hphase => ChannelUnit.resumeContinue_gapOver hlist hphase,
      fun hphase => ChannelUnit.resumeRepeat_step hlist hphase, fun g hphase => ChannelUnit.resumeRepeat_gap hlist hphase⟩
    case moves =>
      rw [ChannelUnit.resumeContinue_move hlist hphase, ChannelUnit.continueMove_runs hslot hphase hrate hway]
      exact ChannelUnit.finish_of_phase tag rfl (by rw [hphase]; exact nofun)
    case ends => rw [ChannelUnit.resumeContinue_move hlist hphase, ChannelUnit.continueMove_ends hslot hends]
    case checks =>
      rw [ChannelUnit.resumeContinue_step hlist (.inl hphase)]
      exact ChannelUnit.finish_of_phase tag rfl (by rw [hphase]; exact nofun)

/-! ## PROCEED (R118, R146) -/

/-- The current step holds on PROCEED and has not seen one. -/
def ChannelUnit.waitsProceed (u : ChannelUnit) (r : Runtime) : Prop :=
  u.list = .running r ∧ (∀ g, r.phase ≠ .gap g) ∧ r.proceedSeen = false ∧
    ∃ st, u.slots[r.index] = some st ∧ st.hold = .proceed

section
variable {u : ChannelUnit} {r : Runtime}

theorem ChannelUnit.waitsProceed_iff : u.waitsProceed r ↔ u.holdsOn .proceed = some r ∧ r.proceedSeen = false := by
  rw [ChannelUnit.holdsOn_iff]
  exact ⟨fun ⟨hlist, hstep, hseen, hslot⟩ => ⟨⟨hlist, hstep, hslot⟩, hseen⟩,
    fun ⟨⟨hlist, hstep, hslot⟩, hseen⟩ => ⟨hlist, hstep, hseen, hslot⟩⟩

theorem ChannelUnit.proceeds_iff : u.proceeds = true ↔ ∃ r, u.waitsProceed r := by
  simp only [ChannelUnit.waitsProceed_iff]
  unfold ChannelUnit.proceeds
  cases u.holdsOn .proceed with
  | none => exact iff_of_false Bool.false_ne_true nofun
  | some r => simp

end

/-- Settles O43: PROCEED reaches the lists that wait for one, and the answer names their channels. -/
theorem proceedOutcomes : Obligations.ProceedOutcomes := by
  intro m set s hpass hown waits
  have hend : ∀ c : Ch, set.getLsbD c.val = true → (s.endFrame m).holder c = some m := hown
  refine ⟨⟨_, request_answers hpass rfl (ownSet_holder hend _), fun c => ?reached⟩,
    fun u => ⟨fun r hwaits => ?seen, fun hnone => ?none⟩⟩
  case reached =>
    exact State.channelsWhere_word.trans (and_congr_right fun _ => ChannelUnit.proceeds_iff)
  case seen =>
    obtain ⟨hholds, hseen⟩ := ChannelUnit.waitsProceed_iff.mp hwaits
    exact ChannelUnit.proceed_seen hholds hseen
  case none =>
    refine ChannelUnit.proceed_unchanged fun r hholds => ?_
    rw [← Bool.not_eq_false]
    exact fun hseen => hnone r (ChannelUnit.waitsProceed_iff.mpr ⟨hholds, hseen⟩)

/-! ## Trigger edges (R117, R127, R184) -/

/-- The current step holds on the line and has not seen an edge of it. -/
def ChannelUnit.waitsEdge (l : Line) (u : ChannelUnit) (r : Runtime) : Prop :=
  u.list = .running r ∧ (∀ g, r.phase ≠ .gap g) ∧ r.triggerSeen = false ∧
    ∃ st, u.slots[r.index] = some st ∧ st.hold.line = some l

theorem ChannelUnit.waitsEdge_iff {l : Line} {u : ChannelUnit} {r : Runtime} :
    u.waitsEdge l r ↔ u.holdsOn (lineHold l) = some r ∧ r.triggerSeen = false := by
  simp only [ChannelUnit.holdsOn_iff, lineHold_line_iff]
  exact ⟨fun ⟨hlist, hstep, hseen, hslot⟩ => ⟨⟨hlist, hstep, hslot⟩, hseen⟩,
    fun ⟨⟨hlist, hstep, hslot⟩, hseen⟩ => ⟨hlist, hstep, hseen, hslot⟩⟩

theorem EdgeSelection.matchesLevel_iff {selection : EdgeSelection} {level : Level} :
    selection.matchesLevel level = true ↔
      selection = .both ∨ (selection = .rising ∧ level = .high) ∨ (selection = .falling ∧ level = .low) := by
  cases selection <;> simp [EdgeSelection.matchesLevel]

section
variable {l : Line} {level : Level} {s : State}

theorem State.transition_unselected (h : ¬ (s.line l).selection.matchesLevel level = true) :
    s.transition l level = s.setLine l { selection := (s.line l).selection, level := level } := if_neg h

theorem State.transition_selected (h : (s.line l).selection.matchesLevel level = true) :
    s.transition l level =
      (s.setLine l { selection := (s.line l).selection, level := level }).channelEvents allChannels
        (ChannelUnit.edge s.timeTag l) := if_pos h

theorem exec_transition {heldNs : Nat} (hreset : s.inReset = false) (hheld : 2000 ≤ heldNs)
    (hlevel : level ≠ (s.line l).level) :
    exec (.triggerTransition l level heldNs) s = .next (s.transition l level) := by
  refine if_neg ?_
  rintro (h | h | h)
  · exact Bool.false_ne_true (hreset.symm.trans h)
  · exact absurd h (Nat.not_lt.mpr hheld)
  · exact hlevel h

end

/-- Settles O45: a transition that the line recognises moves its level, and one that it selects reaches every channel unit. -/
theorem triggerTransitionOutcomes : Obligations.TriggerTransitionOutcomes := by
  constructor
  case left =>
    intro l level heldNs s hreset moved selected
    refine ⟨fun h => if_pos (.inr h), fun hheld hlevel hnot => ?_, fun hheld hlevel hselected => ?_⟩
    · rw [exec_transition hreset hheld hlevel,
        State.transition_unselected fun h => hnot (EdgeSelection.matchesLevel_iff.mp h)]
    · rw [exec_transition hreset hheld hlevel, State.transition_selected (EdgeSelection.matchesLevel_iff.mpr hselected)]
      rfl
  case right =>
    intro l tag u uses
    refine ⟨fun h => ChannelUnit.edge_armed h, fun r huses => ?_, fun harmed hnone => ?_⟩
    · obtain ⟨hholds, hseen⟩ := ChannelUnit.waitsEdge_iff.mp huses
      exact ChannelUnit.edge_used hholds hseen
    · refine (ChannelUnit.edge_marked harmed fun r hholds => ?_).trans ?_
      · rw [← Bool.not_eq_false]
        exact fun hseen => hnone r (ChannelUnit.waitsEdge_iff.mpr ⟨hholds, hseen⟩)
      · cases l <;> rfl

end Sys2Proof.Machine
end

section
/-!
The bytes of a record (R194), and the requests of the completion log (R155, R158).
-/

namespace Sys2Proof.Machine

/-! ## The log readout (R155, R194) -/

/-- The presence byte of a channel body, by which of its five fields are present. -/
def presenceByte (index pass check detail value : Bool) : Byte :=
  packedBit index 0 ||| packedBit pass 1 ||| packedBit check 2 ||| packedBit detail 3 ||| packedBit value 4

theorem channelBody_eq (index : Option (Fin 16)) (pass : Option Word16) (check : Option (Byte × Verdict))
    (detail : Option Byte) (value : Option Word16) :
    channelBody index pass check detail value =
      [presenceByte index.isSome pass.isSome check.isSome detail.isSome value.isSome,
        natByte ((index.map Fin.val).getD 0)] ++ bytes16 (pass.getD 0) ++
        (check.elim [0x00, 0x00, 0x00] fun k => [k.1, k.2.raw.setWidth 8, k.2.counted.setWidth 8]) ++
        [detail.getD 0x00] ++ bytes16 (value.getD 0) := by
  cases check <;> rfl

section
variable {m : Master} {s : State}

/-- The first byte of the log readout: a record is present, and records were lost before it. -/
theorem presenceByte_of_none (gap : Bool) : packedBit false 0 ||| packedBit gap 1 = if gap = true then 0x02 else 0x00 := by
  cases gap <;> rfl

theorem presenceByte_of_some (gap : Bool) :
    packedBit true 0 ||| packedBit gap 1 = 0x01 ||| if gap = true then 0x02 else 0x00 := by
  cases gap <;> rfl

theorem CompletionLog.designated_none {l : CompletionLog} {r : LogReader} (h : l.unread r = 0) : l.designated r = none :=
  if_pos h

/-- In a lawful log, a reader with records unread designates one of them: the one that its cursor names (R153, R155). -/
theorem LogLaw.designated_some (hlaw : LogLaw s) (h : s.log.unread (s.log.readers.get m) ≠ 0) :
    ∃ k ∈ s.log.records, k.seq = (s.log.readers.get m).cursor ∧
      s.log.designated (s.log.readers.get m) = some k := by
  obtain ⟨-, hseq, hreader⟩ := hlaw
  obtain ⟨hunread, -⟩ := hreader m
  generalize s.log.readers.get m = before at h hunread ⊢
  have hn : s.log.records.length - s.log.unread before < s.log.records.length := by omega
  have hcursor : s.log.records[s.log.records.length - s.log.unread before].seq = before.cursor := by
    rw [hseq _ hn, Nat.sub_sub_self hunread, CompletionLog.unread, BitVec.ofNat_toNat, BitVec.setWidth_eq]
    exact sub_sub_cancel ..
  have hfound : (s.log.records.find? (fun k => k.seq = before.cursor)).isSome :=
    List.find?_isSome.mpr ⟨_, List.getElem_mem hn, decide_eq_true hcursor⟩
  obtain ⟨k, hk⟩ := Option.isSome_iff_exists.mp hfound
  have hsame : k.seq = before.cursor := by simpa using List.find?_some hk
  exact ⟨k, List.mem_of_find?_eq_some hk, hsame, (if_neg h).trans hk⟩

theorem takeReadLog_none (mode : Byte) (h : s.log.unread (s.log.readers.get m) = 0) :
    takeReadLog m mode s =
      (s.setReader m { s.log.readers.get m with gap := false },
        .ok [if (s.log.readers.get m).gap = true then 0x02 else 0x00, 0x00]) := by
  have hread : (s.log.readers.get m).read mode false = { s.log.readers.get m with gap := false } := by
    rw [LogReader.read, if_neg (fun hboth => Bool.false_ne_true hboth.2)]
  have hleft : s.log.unread { s.log.readers.get m with gap := false } = 0 := h
  simp only [takeReadLog, CompletionLog.designated_none h, Option.isSome_none, hread, logReadout, hleft, presenceByte_of_none]
  rfl

theorem takeReadLog_next {k : LogRecord} (h : s.log.designated (s.log.readers.get m) = some k)
    (hunread : s.log.unread (s.log.readers.get m) ≠ 0) :
    takeReadLog m 0 s =
      (s.setReader m { s.log.readers.get m with cursor := (s.log.readers.get m).cursor + 1, gap := false },
        .ok ([0x01 ||| (if (s.log.readers.get m).gap = true then 0x02 else 0x00),
          BitVec.ofNat 8 (s.log.unread (s.log.readers.get m) - 1)] ++ k.bytes)) := by
  have hread : (s.log.readers.get m).read 0 true =
      { s.log.readers.get m with cursor := (s.log.readers.get m).cursor + 1, gap := false } := by
    rw [LogReader.read, if_pos ⟨rfl, rfl⟩]
  have hleft : s.log.unread { s.log.readers.get m with cursor := (s.log.readers.get m).cursor + 1, gap := false } =
      s.log.unread (s.log.readers.get m) - 1 := by
    unfold CompletionLog.unread at hunread ⊢
    bv_omega
  simp only [takeReadLog, h, Option.isSome_some, hread, logReadout, hleft, presenceByte_of_some]
  rfl

theorem takeReadLog_again {k : LogRecord} (h : s.log.designated (s.log.readers.get m) = some k) :
    takeReadLog m 1 s =
      (s.setReader m { s.log.readers.get m with gap := false },
        .ok ([0x01 ||| (if (s.log.readers.get m).gap = true then 0x02 else 0x00),
          BitVec.ofNat 8 (s.log.unread (s.log.readers.get m))] ++ k.bytes)) := by
  have hread : (s.log.readers.get m).read 1 true = { s.log.readers.get m with gap := false } := by
    rw [LogReader.read, if_neg (fun hboth => absurd hboth.1 (by decide))]
  have hleft : s.log.unread { s.log.readers.get m with gap := false } = s.log.unread (s.log.readers.get m) := rfl
  simp only [takeReadLog, h, Option.isSome_some, hread, logReadout, hleft, presenceByte_of_some]
  rfl

end

/-- Settles O47: the bytes of a record follow its kind, and a reader's cursor and gap flag say what READ_LOG answers. -/
theorem logRequests : Obligations.LogRequests := by
  refine ⟨fun seq tag m => ⟨fun number set heir => ⟨rfl, rfl, rfl, rfl, rfl, rfl, rfl⟩,
    fun c index pass code digest attempts v stage => ⟨?changed, ?done, ?doneChecked, ?pass, ?overrun, ?ended,
      fun reason => ?stopped, ?failedStep, ?failed, ?recoveredStep, ?recovered⟩,
    rfl⟩, fun m s => ?requests⟩
  case changed | done | doneChecked | pass | overrun | ended | failedStep | failed | recoveredStep | recovered =>
    simp only [LogRecord.bytes, RecordBody.bytes, ChannelRecord.bytes, channelBody_eq, Option.isSome_some, Option.isSome_none,
      Option.map_some, Option.map_none]
    rfl
  case stopped =>
    cases reason with
    | request | fault =>
      simp only [LogRecord.bytes, RecordBody.bytes, ChannelRecord.bytes, channelBody_eq, Option.isSome_some, Option.isSome_none]
      exact ⟨rfl, rfl, rfl⟩
  case requests =>
    intro before unread gapBit
    refine ⟨fun mode hf hmode => ?read, fun threshold hf hthreshold => ?threshold⟩
    case read =>
      have hpass : PassesHead (.readLog m mode) m s := passesHead_exempt hf (decide_eq_true hmode) rfl
      refine ⟨fun hnone => request_answers hpass rfl (takeReadLog_none (s := s.endFrame m) mode hnone),
        fun hlaw hsome => ?_⟩
      obtain ⟨k, hk, hseq, hdesignated⟩ := hlaw.designated_some hsome
      refine ⟨k, hk, hseq, ?_, ?_⟩
      · rintro rfl
        exact request_answers hpass rfl (takeReadLog_next (s := s.endFrame m) hdesignated hsome)
      · rintro rfl
        exact request_answers hpass rfl (takeReadLog_again (s := s.endFrame m) hdesignated)
    case threshold =>
      exact request_answers (passesHead_exempt hf (decide_eq_true hthreshold) rfl) rfl rfl

end Sys2Proof.Machine
end

section
/-!
The requests to the whole device, from the holder of all twelve channels (R185, R187).
-/

namespace Sys2Proof.Machine

section
variable {m : Master} {s : State}

theorem holdsAll_allSet (h : ∀ c : Ch, s.holder c = some m) : s.holdsAll m allSet = true :=
  State.holdsAll_iff.mpr fun c _ => h c

theorem takeSetTriggers_taken (h : ∀ c : Ch, s.holder c = some m) (sel0 sel1 : EdgeSelection) :
    takeSetTriggers m (edgeSelectionOf sel0.code) (edgeSelectionOf sel1.code) s =
      ({ s with trg0 := { s.trg0 with selection := sel0 }, trg1 := { s.trg1 with selection := sel1 } },
        .ok [s.trg0.selection.code, s.trg1.selection.code, sel0.code, sel1.code]) := by
  rw [edgeSelectionOf_code, edgeSelectionOf_code]
  exact if_pos (holdsAll_allSet h)

theorem takeResetDevice_taken (h : ∀ c : Ch, s.holder c = some m) : takeResetDevice m s = (s.softReset m, .ok []) :=
  if_pos (holdsAll_allSet h)

/-! ## What a soft reset leaves, block by block (R30, R71, R100, R123, R160, R169, R180) -/

theorem State.softReset_entry (s : State) (m : Master) (p : Pos) : (s.softReset m).entry p = none := by
  show (Vector.replicate 8 (none : Option ClaimEntry))[p.val] = none
  exact Vector.getElem_replicate _

theorem State.softReset_barred (s : State) (m : Master) (n : Master) : (s.softReset m).barred n = false := by
  cases n <;> rfl

theorem ListState.softReset_eq (l : ListState) : l.softReset = if l = .empty then .empty else .loaded := by
  cases l <;> rfl

theorem State.softReset_channel (s : State) (m : Master) (c : Ch) :
    (s.softReset m).channel c =
      { s.channel c with
        drive := .steady, faultLatch := false, lastCheck := none, mark0 := none, mark1 := none
        list := if (s.channel c).list = .empty then .empty else .loaded } := by
  rw [← ListState.softReset_eq]
  exact mapVector_get ..

theorem State.softReset_reader (s : State) (m : Master) (n : Master) :
    (s.softReset m).log.readers.get n = { s.log.readers.get n with cursor := 0, gap := false } := PerMaster.get_mapWith ..

theorem State.softReset_notice (s : State) (m : Master) (n : Master) : (s.softReset m).notice n = (s.notice n).softReset := PerMaster.get_mapWith ..

theorem State.softReset_port (s : State) (m : Master) (n : Master) : (s.softReset m).port n = (s.port n).softReset := PerMaster.get_mapWith ..

end

/-- Settles O48: the soft reset reaches every block, and then the requester's port takes its answer OK. -/
theorem deviceRequests : Obligations.DeviceRequests := by
  intro m s hholder
  have hend : ∀ c : Ch, (s.endFrame m).holder c = some m := hholder
  refine ⟨fun edge0 edge1 sel0 sel1 h0 h1 hpass => ?triggers, fun hpass => ?reset⟩
  case triggers =>
    subst h0 h1
    exact request_answers hpass rfl (takeSetTriggers_taken hend sel0 sel1)
  case reset =>
    refine ⟨_, request_answers hpass rfl (takeResetDevice_taken hend), rfl, rfl, rfl, rfl, rfl,
      State.softReset_entry _ m, rfl, rfl, State.softReset_barred _ m, State.softReset_channel _ m, rfl, rfl,
      State.softReset_reader _ m, State.softReset_notice _ m, ?own,
      fun n hn => ?others⟩
    case own =>
      rw [State.respond, State.port_setPort_same, State.softReset_port, State.endFrame, State.port_setPort_same]
      rfl
    case others =>
      rw [State.respond, State.port_setPort_other _ _ hn, State.softReset_port, State.endFrame,
        State.port_setPort_other _ _ hn]
      rfl

end Sys2Proof.Machine
end

section
/-!
TIME_TAG_ADVANCE (R181, R182): the millisecond ends when nothing is due in it, and no other command changes the time tag.
-/

namespace Sys2Proof.Machine

/-! ## The timers of a millisecond in which nothing is due -/

theorem countDown_of_running {w : Word16} (h : w ≠ 0) : countDown w = w - 1 := if_neg h

section
variable {e : ClaimEntry}

theorem ClaimEntry.due_eq_false_iff : e.due = false ↔ e.waitDue = false ∧ e.leaseDue = false ∧ e.offerDue = false := by
  rw [ClaimEntry.due, Bool.or_eq_false_iff, Bool.or_eq_false_iff, and_assoc]

/-- An entry one millisecond later differs in its state only: its timers. -/
theorem ClaimEntry.tick_eq (e : ClaimEntry) : e.tick = { e with state := e.tick.state } := by
  unfold ClaimEntry.tick
  cases e.state <;> rfl

theorem ClaimEntry.tick_pending_unlimited {expected : Option Word16} (h : e.state = .pending none expected) :
    e.tick.state = e.state := by
  rw [ClaimEntry.tick, h]
  rfl

theorem ClaimEntry.tick_pending {w : WaitTimer} {expected : Option Word16} (h : e.state = .pending (some w) expected)
    (hdue : e.due = false) : e.tick.state = .pending (some { w with remaining := w.remaining - 1 }) expected := by
  obtain ⟨hwait, -, -⟩ := ClaimEntry.due_eq_false_iff.mp hdue
  rw [ClaimEntry.waitDue, h] at hwait
  rw [ClaimEntry.tick, h, ← countDown_of_running (of_decide_eq_false hwait)]
  rfl

theorem ClaimEntry.tick_held {lease : Word16} {tag : Word32} (h : e.state = .held lease tag) (hdue : e.due = false) :
    e.tick.state = .held (lease - 1) tag := by
  obtain ⟨-, hlease, -⟩ := ClaimEntry.due_eq_false_iff.mp hdue
  rw [ClaimEntry.leaseDue, ClaimEntry.leaseRemaining, h] at hlease
  have hrunning : lease ≠ 0 := fun hzero => of_decide_eq_false hlease (congrArg some hzero)
  rw [ClaimEntry.tick, h, ← countDown_of_running hrunning]

theorem ClaimEntry.tick_offered {lease : Word16} {tag : Word32} {target : Master} {remaining : Word16}
    (h : e.state = .offered lease tag target remaining) (hdue : e.due = false) :
    e.tick.state = .offered (lease - 1) tag target (remaining - 1) := by
  obtain ⟨-, hlease, hoffer⟩ := ClaimEntry.due_eq_false_iff.mp hdue
  rw [ClaimEntry.leaseDue, ClaimEntry.leaseRemaining, h] at hlease
  rw [ClaimEntry.offerDue, h] at hoffer
  have hrunning : lease ≠ 0 := fun hzero => of_decide_eq_false hlease (congrArg some hzero)
  rw [ClaimEntry.tick, h, ← countDown_of_running hrunning, ← countDown_of_running (of_decide_eq_false hoffer)]

end

section
variable {u : ChannelUnit}

theorem ChannelUnit.due_eq_false_iff : u.due = false ↔ u.drive.due = false ∧ u.list.due = false := Bool.or_eq_false_iff

theorem Drive.tick_checking {d : Drive} {ck : Check} (h : d = .checking ck) (hdue : d.due = false) :
    d.tick = .checking { ck with settleRemaining := ck.settleRemaining - 1 } := by
  subst h
  rw [Drive.tick, if_neg (of_decide_eq_false hdue)]

/-- The run phase with one millisecond off its gap. -/
def RunPhase.countedDown : RunPhase → RunPhase
  | .gap g => .gap (g - 1)
  | .move => .move
  | .check => .check
  | .hold => .hold

theorem RunPhase.tick_eq {p : RunPhase} (h : p ≠ .gap 0) : p.tick = p.countedDown := by
  cases p with
  | gap g => exact congrArg RunPhase.gap (countDown_of_running fun hzero => h (congrArg RunPhase.gap hzero))
  | move | check | hold => rfl

theorem dwell_tick_eq {d : Option Word16} (h : d ≠ some 0) : d.map countDown = d.map fun w => w - 1 := by
  cases d with
  | none => rfl
  | some w => exact congrArg some (countDown_of_running fun hzero => h (congrArg some hzero))

theorem ListState.tick_running {l : ListState} {r : Runtime} (h : l = .running r) (hdue : l.due = false) :
    l.tick = .running { r with dwellTimer := r.dwellTimer.map (fun d => d - 1), phase := r.phase.countedDown } := by
  subst h
  obtain ⟨hdwell, hgap⟩ := Bool.or_eq_false_iff.mp hdue
  rw [ListState.tick, dwell_tick_eq (of_decide_eq_false hdwell), RunPhase.tick_eq (of_decide_eq_false hgap)]

theorem ListState.tick_other {l : ListState} (h : ∀ r, l ≠ .running r) : l.tick = l := by
  cases l with
  | running r => exact absurd rfl (h r)
  | empty | loaded | armed line | paused r => rfl

end

/-! ## The end of a millisecond (R181, R182) -/

section
variable {s : State}

theorem State.anyDue_eq_false (h : s.anyDue = false) :
    (∀ p e, s.entry p = some e → e.due = false) ∧ ∀ c, (s.channel c).due = false := by
  rw [State.anyDue, Bool.or_eq_false_iff, List.any_eq_false, List.any_eq_false] at h
  obtain ⟨hentries, hchannels⟩ := h
  refine ⟨fun p e he => ?_, fun c => Bool.eq_false_iff.mpr (hchannels c (mem_allChannels c))⟩
  have hentry := hentries p (mem_allPositions p)
  rw [he] at hentry
  exact Bool.eq_false_iff.mpr hentry

theorem State.millisecond_entry (s : State) (p : Pos) : s.millisecond.entry p = (s.entry p).map ClaimEntry.tick :=
  mapVector_get ..

theorem State.millisecond_channel (s : State) (c : Ch) : s.millisecond.channel c = (s.channel c).tick := mapVector_get ..

/-- No kind of change touches the time tag. -/
theorem timeTag_kept (tag : Word32) : StepKept (fun s => s.timeTag = tag) where
  port m q _ h := h
  append b h := h
  notices m f _ h := h
  reader m r _ _ h := h
  line l tl h := by cases l <;> exact h
  renewLeases m set h := h
  inPlace _ h := h
  ordered _ h := h
  granted _ _ _ h := h
  ackRevoke m h := h
  channel c u h := h
  freed _ _ h := h
  bar m h := h

/-- Only the advance itself and a full reset change the time tag. -/
theorem exec_timeTag {i : Instr} {t : State} (htag : i ≠ .timeTagAdvance) (hreset : ∀ source, i ≠ .fullReset source)
    (hend : ∀ level0 level1, i ≠ .fullResetEnd level0 level1) (h : exec i s = .next t) : t.timeTag = s.timeTag := by
  by_cases hi : commandGroup i = .device
  case neg => exact (timeTag_kept s.timeTag).exec rfl hi t h
  cases i
  case resetDevice m => exact (timeTag_kept s.timeTag).toQuiet.exec_resetDevice rfl m (fun ht => ht) t h
  case fullReset source => exact absurd rfl (hreset source)
  case fullResetEnd level0 level1 => exact absurd rfl (hend level0 level1)
  case timeTagAdvance => exact absurd rfl htag
  all_goals nomatch hi

end

/-- Settles O49: a timer that is not due is above 0, so that counting it down takes 1 off it. -/
theorem timeTagAdvanceOutcomes : Obligations.TimeTagAdvanceOutcomes := by
  refine ⟨fun s hreset hdue => if_pos (by rw [hdue, Bool.or_true]), fun s hreset hdue => ?_,
    fun i s t htag hreset hend h => exec_timeTag htag hreset hend h⟩
  obtain ⟨hentries, hchannels⟩ := State.anyDue_eq_false hdue
  refine ⟨s.millisecond, if_neg (by rw [hreset, hdue]; exact Bool.false_ne_true), rfl, rfl, fun p hp => ?blank,
    fun p e he => ?entry, fun c => ?channel⟩
  case blank => rw [State.millisecond_entry, hp]; rfl
  case entry =>
    have hnot := hentries p e he
    refine ⟨e.tick.state, ?_, fun _ h => ClaimEntry.tick_pending_unlimited h, fun _ _ h => ClaimEntry.tick_pending h hnot,
      fun _ _ h => ClaimEntry.tick_held h hnot, fun _ _ _ _ h => ClaimEntry.tick_offered h hnot⟩
    rw [State.millisecond_entry, he, ← ClaimEntry.tick_eq]
    rfl
  case channel =>
    intro u
    obtain ⟨hdrive, hlist⟩ := ChannelUnit.due_eq_false_iff.mp (hchannels c)
    rw [State.millisecond_channel]
    exact ⟨rfl, fun h => congrArg Drive.tick h, fun mv h => congrArg Drive.tick h,
      fun ck h => Drive.tick_checking h hdrive, ListState.tick_other, fun r h => ListState.tick_running h hlist⟩

end Sys2Proof.Machine
end
